-- ==== Sys2Proof/Word.lean ====
section
/-! DEFINITION. The word types of the DMC: a byte, a binary64 pattern (00_scope.md R13), an 8-byte payload held as the
64-bit little-endian word of 20_memory.md R43. -/

namespace Sys2Proof

/-- One payload byte (R10, R40). -/
abbrev Byte := BitVec 8

/-- The 64-bit pattern an `f64` port carries (R13). -/
abbrev F64 := BitVec 64

/-- A payload as its 64-bit port word: byte `i` is bits `8i+7 : 8i` (R43). -/
abbrev Payload := BitVec 64

end Sys2Proof
end

