-- ==== Sys2Proof/Config.lean ====
section
/-! DEFINITION. What is fixed when the block is built (00_scope.md R9), the numerics as one record (R18), and the free
values (40_scalar_quantizer.md R94, R98, R99). -/

namespace Sys2Proof

/-- `RX_VEL_SHIFT` (R9): 0 is the source's formula as written, 4 the spec's alternative reading. -/
inductive RxVelShift where
  | zero
  | four
  deriving DecidableEq, Repr

/-- The two open parameters of R9, with the spec's defaults. -/
structure Config where
  rxVelShift  : RxVelShift := .zero
  strictRange : Bool := false
  deriving DecidableEq, Repr

/-- R18: the four operations, the two conversions and the comparison as one record. R13 to R17 are its reference
instance (`Numerics.reference` of Machine/Float.lean). -/
structure Numerics where
  fsub : F64 → F64 → F64
  fadd : F64 → F64 → F64
  fmul : F64 → F64 → F64
  fdiv : F64 → F64 → F64
  u2f  : Nat → F64
  f2i  : F64 → Int
  flt  : F64 → F64 → Bool

/-- FREE VALUE (log 5): what `q_code` holds after a transaction that raised NonFinite (R94) or OutOfRangeInput (R99),
where the spec says it is unspecified. No body, so nothing can be proved of it. -/
opaque Config.freeCode : Nat → BitVec 32

/-- FREE VALUE (log 5): what `dq_y` holds after a transaction that raised NonFinite (R98). -/
opaque Config.freeReal : Nat → F64

end Sys2Proof
end

