-- ==== Sys2Proof/Machine/Float.lean ====
section
/-! DEFINITION. The reference numerics of 00_scope.md R13 to R17: binary64 with round to nearest, ties to even. Every
finite binary64 value is a whole number of units of 2^-1074, so the exact values are integers here, and a sum, product
or quotient is one quotient of integers that is rounded once. -/

namespace Sys2Proof.Machine

/-! ### The format (R13) -/

/-- Bit 63. -/
def F64.sign (a : F64) : Bool := decide (2 ^ 63 ≤ a.toNat)

/-- Bits 62 to 52, the biased exponent. -/
def F64.expo (a : F64) : Nat := a.toNat / 2 ^ 52 % 2048

/-- Bits 51 to 0, the fraction. -/
def F64.frac (a : F64) : Nat := a.toNat % 2 ^ 52

/-- "A pattern is finite when e != 2047" (R13). -/
def F64.finite (a : F64) : Bool := F64.expo a != 2047

/-- The magnitude of a finite pattern, in units of 2^-1074 (R13). -/
def F64.mag (a : F64) : Nat :=
  if F64.expo a = 0 then F64.frac a else (2 ^ 52 + F64.frac a) * 2 ^ (F64.expo a - 1)

/-- The value of a finite pattern, in units of 2^-1074 (R13). -/
def F64.units (a : F64) : Int := if F64.sign a then -(F64.mag a : Int) else F64.mag a

/-- How many units make 1.0. -/
def F64.one : Nat := 2 ^ 1074

/-- The pattern with the other sign. -/
def F64.neg (a : F64) : F64 := BitVec.ofNat 64 ((a.toNat + 2 ^ 63) % 2 ^ 64)

/-! ### Rounding (R14) -/

/-- `p / q` units rounded to the nearest magnitude of 53 significant bits, ties to the even one. The quantum is
`2 ^ j`, the spacing of the values around `p / q`; no value is below one unit (gradual underflow). -/
def roundQuot (p q : Nat) : Nat :=
  let j := Nat.log2 (p / q) - 52
  let d := q * 2 ^ j
  let t := p / d
  let r := p % d
  (if d < 2 * r ∨ (2 * r = d ∧ t % 2 = 1) then t + 1 else t) * 2 ^ j

/-- The pattern of a rounded magnitude; at or above 2^1024 the infinity of its sign. -/
def packMag (neg : Bool) (n : Nat) : F64 :=
  let j := Nat.log2 n - 52
  BitVec.ofNat 64 ((if neg then 2 ^ 63 else 0) + Nat.min (j * 2 ^ 52 + n / 2 ^ j) (2047 * 2 ^ 52))

/-- `fl(± p / q)` of R14. -/
def fl (neg : Bool) (p q : Nat) : F64 := packMag neg (roundQuot p q)

/-- What an operation answers when an operand is not finite or a divisor is zero. R15 says only that the result is
non-finite; which non-finite pattern stands here is DESIGN CHOICE (log 6, safe): no rule looks at more than that. -/
def F64.nonFinite : F64 := 0x7FF8000000000000#64

/-! ### Operations (R15) -/

def fadd (a b : F64) : F64 :=
  if F64.finite a && F64.finite b then
    let u := F64.units a + F64.units b
    if u = 0 then packMag (F64.sign a && F64.sign b) 0 else fl (decide (u < 0)) u.natAbs 1
  else F64.nonFinite

/-- R15: a subtraction is the addition of the negated operand. -/
def fsub (a b : F64) : F64 := fadd a (F64.neg b)

def fmul (a b : F64) : F64 :=
  if F64.finite a && F64.finite b then
    fl (F64.sign a != F64.sign b) (F64.mag a * F64.mag b) F64.one
  else F64.nonFinite

def fdiv (a b : F64) : F64 :=
  if F64.finite a && F64.finite b && F64.mag b != 0 then
    fl (F64.sign a != F64.sign b) (F64.mag a * F64.one) (F64.mag b)
  else F64.nonFinite

/-! ### Conversions (R16) and comparison (R17) -/

/-- The binary64 value equal to an integer below 2^32; exact there. -/
def u2f (n : Nat) : F64 := fl false (n * F64.one) 1

/-- Truncation toward zero (R11, R16). Never evaluated on a non-finite value (R94). -/
def f2i (a : F64) : Int := Int.tdiv (F64.units a) F64.one

/-- `flt` of R17, as real numbers, so `-0` and `+0` are equal. -/
def flt (a b : F64) : Bool := decide (F64.units a < F64.units b)

/-- The reference instance of R18. -/
def Numerics.reference : Numerics :=
  { fsub := fsub, fadd := fadd, fmul := fmul, fdiv := fdiv, u2f := u2f, f2i := f2i, flt := flt }

end Sys2Proof.Machine
end

