-- ==== Sys2Proof/Syntax.lean ====
section
/-! DEFINITION. The fourteen operations of the DMC (30_encoding.md R74) as one inductive, with the input records of the
ports (10_state.md R26, R28, R30, R31) as their operands, and the raw form in which the host presents a transaction. -/

namespace Sys2Proof

/-- The range operand of QUANT and DEQUANT (R90): `min`, `max` as f64 patterns, `bits` as the 6-bit port field. -/
structure ScalarRange where
  min  : F64
  max  : F64
  bits : BitVec 6
  deriving DecidableEq, Repr

/-- MotorCommand (R19, R26): the five logical fields sent to the motor. -/
structure MotorCommand where
  pos : F64
  vel : F64
  trq : F64
  kp  : F64
  kd  : F64
  deriving DecidableEq, Repr

/-- The command part of the TX input record (R26): `tx_cmd_valid` and the five fields, which are on the port whatever
the valid bit says. -/
structure CommandIn where
  valid : Bool
  cmd   : MotorCommand
  deriving DecidableEq, Repr

/-- The RX input record (R28). -/
structure RxIn where
  id   : BitVec 32
  len  : BitVec 4
  data : Payload
  deriving DecidableEq, Repr

/-- The operations of R74, each with the operands its rule reads, and with the operands its rule says it ignores (the
port carries them all the same: R26, R28). -/
inductive Instr where
  /-- QUANT, R91. -/
  | quant (x : F64) (range : ScalarRange)
  /-- DEQUANT, R97. -/
  | dequant (code : BitVec 32) (range : ScalarRange)
  /-- PACK, R110; inside BUILD.CONTROL only (R73). -/
  | pack (cmd : MotorCommand)
  /-- UNPACK, R115; inside PARSE.CONTROL only (R73). -/
  | unpack (len : BitVec 4) (data : Payload)
  /-- IDENC, R130; inside every BUILD (R73). -/
  | idenc (opcode : BitVec 6) (motor : BitVec 5)
  /-- IDDEC, R131; inside every PARSE (R73). -/
  | iddec (id : BitVec 32)
  /-- BUILD.DISABLE, R141 (`tx_opcode = 1`). -/
  | buildDisable (motor : BitVec 5) (command : CommandIn)
  /-- BUILD.ENABLE, R142 (`tx_opcode = 2`). -/
  | buildEnable (motor : BitVec 5) (command : CommandIn)
  /-- BUILD.CONTROL, R143 (`tx_opcode = 4`). -/
  | buildControl (motor : BitVec 5) (command : CommandIn)
  /-- BUILD.UNKNOWN, R144 (`tx_opcode` any other value). -/
  | buildUnknown (opcode : BitVec 6) (motor : BitVec 5) (command : CommandIn)
  /-- PARSE.DISABLE, R148 (`rx_id[10:5] = 1`). -/
  | parseDisable (rx : RxIn)
  /-- PARSE.ENABLE, R149 (`rx_id[10:5] = 2`). -/
  | parseEnable (rx : RxIn)
  /-- PARSE.CONTROL, R147 (`rx_id[10:5] = 4`). -/
  | parseControl (rx : RxIn)
  /-- PARSE.UNKNOWN, R150 (`rx_id[10:5]` any other value). -/
  | parseUnknown (rx : RxIn)
  deriving DecidableEq, Repr

/-- The four ports (R32). -/
inductive Port where
  | tx
  | rx
  | q
  | dq
  deriving DecidableEq, Repr

/-- A transaction as the host presents it: a port, and the bytes of that port's input record. The order of the bytes is
the model's (DESIGN CHOICE, log 1; safe: it is the host's side of the port): fields in the order of the tables of R26,
R28, R30, R31, each in whole bytes, least significant byte first; on TX the first two bytes are the FID-TX word of R60. -/
structure Request where
  port  : Port
  bytes : List Byte
  deriving DecidableEq, Repr

end Sys2Proof
end

