-- ==== Sys2Proof/Decode.lean ====
section
/-! DEFINITION. Decoding a presented transaction into the operation it selects (30_encoding.md R68, R70, R74), total on
any bytes, with the reasons it rejects by name; then the encoder, written from the same tables; then the reading of a
word of spec/opcode_table.json. -/

namespace Sys2Proof

/-- Why a request is no transaction of its port. All of these are U14 and D9: the value is not presentable on a port of
the given width. -/
inductive DecodeError where
  /-- The number of bytes is not that of the port's input record. -/
  | recordLength
  /-- The FID-TX word has a bit above bit 10: an opcode above 63 (R60, U14). -/
  | identifierTooWide
  /-- `tx_cmd_valid` is not one bit (R26). -/
  | validTooWide
  /-- `rx_len` does not fit its 4 bits (R28). -/
  | lengthTooWide
  /-- `q_bits` or `dq_bits` does not fit its 6 bits (R30, R31). -/
  | bitsTooWide
  deriving DecidableEq, Repr

/-! ### Bytes -/

/-- The little-endian integer of a list of bytes (R12, R43). -/
def leNat : List Byte → Nat
  | [] => 0
  | b :: bs => b.toNat + 256 * leNat bs

/-- The low `n` bytes of an integer, least significant first (R12, R43). -/
def leBytes : Nat → Nat → List Byte
  | 0, _ => []
  | n + 1, v => BitVec.ofNat 8 v :: leBytes n (v / 256)

/-- The `n`-byte field that starts at byte `off` of a record. -/
def fieldAt (bytes : List Byte) (off n : Nat) : Nat := leNat ((bytes.drop off).take n)

/-- An f64 field of a record. -/
def realAt (bytes : List Byte) (off : Nat) : F64 := BitVec.ofNat 64 (fieldAt bytes off 8)

/-- The number of bytes of a port's input record in the layout of `Request` (log 1): TX 2 + 1 + 5·8 (R26), RX 4 + 1 + 8
(R28), Q 3·8 + 1 (R30), DQ 4 + 2·8 + 1 (R31). -/
def recordLength : Port → Nat
  | .tx => 43
  | .rx => 13
  | .q => 25
  | .dq => 21

/-! ### Selection -/

/-- `(frame_id >> 5) & 0x3F` (R61, R67). -/
def rxOpcode (id : BitVec 32) : BitVec 6 := ((id >>> 5) &&& 0x3F#32).setWidth 6

/-- The operation the TX port runs for an opcode (R140). -/
def selectBuild (op : BitVec 6) (motor : BitVec 5) (c : CommandIn) : Instr :=
  if op = 1 then .buildDisable motor c
  else if op = 2 then .buildEnable motor c
  else if op = 4 then .buildControl motor c
  else .buildUnknown op motor c

/-- The operation the RX port runs for an identifier (R146). -/
def selectParse (rx : RxIn) : Instr :=
  if rxOpcode rx.id = 1 then .parseDisable rx
  else if rxOpcode rx.id = 2 then .parseEnable rx
  else if rxOpcode rx.id = 4 then .parseControl rx
  else .parseUnknown rx

/-! ### The decoder -/

/-- The TX record: FID-TX word (`id[10:5]` opcode, `id[4:0]` motor, R60, R70), valid bit, five f64 fields. -/
def decodeTx (bytes : List Byte) : Except DecodeError Instr :=
  let id := fieldAt bytes 0 2
  let valid := fieldAt bytes 2 1
  if 2 ^ 11 ≤ id then .error .identifierTooWide
  else if 2 ≤ valid then .error .validTooWide
  else .ok (selectBuild (BitVec.ofNat 6 (id / 32)) (BitVec.ofNat 5 id)
    { valid := valid == 1
      cmd :=
        { pos := realAt bytes 3, vel := realAt bytes 11, trq := realAt bytes 19
          kp := realAt bytes 27, kd := realAt bytes 35 } })

/-- The RX record: identifier, length, eight data bytes (R28). -/
def decodeRx (bytes : List Byte) : Except DecodeError Instr :=
  let len := fieldAt bytes 4 1
  if 16 ≤ len then .error .lengthTooWide
  else .ok (selectParse
    { id := BitVec.ofNat 32 (fieldAt bytes 0 4), len := BitVec.ofNat 4 len
      data := BitVec.ofNat 64 (fieldAt bytes 5 8) })

/-- The Q record: x, min, max, bits (R30). -/
def decodeQ (bytes : List Byte) : Except DecodeError Instr :=
  let bits := fieldAt bytes 24 1
  if 64 ≤ bits then .error .bitsTooWide
  else .ok (.quant (realAt bytes 0)
    { min := realAt bytes 8, max := realAt bytes 16, bits := BitVec.ofNat 6 bits })

/-- The DQ record: code, min, max, bits (R31). -/
def decodeDq (bytes : List Byte) : Except DecodeError Instr :=
  let bits := fieldAt bytes 20 1
  if 64 ≤ bits then .error .bitsTooWide
  else .ok (.dequant (BitVec.ofNat 32 (fieldAt bytes 0 4))
    { min := realAt bytes 4, max := realAt bytes 12, bits := BitVec.ofNat 6 bits })

/-- The operation a presented transaction selects (R22, R70). Total; PACK, UNPACK, IDENC and IDDEC are never selected,
because no port reaches them (R73). -/
def decode (r : Request) : Except DecodeError Instr :=
  if r.bytes.length = recordLength r.port then
    match r.port with
    | .tx => decodeTx r.bytes
    | .rx => decodeRx r.bytes
    | .q => decodeQ r.bytes
    | .dq => decodeDq r.bytes
  else .error .recordLength

/-! ### The encoder -/

/-- The bytes of an f64 field. -/
def realBytes (x : F64) : List Byte := leBytes 8 x.toNat

/-- A TX record. -/
def encodeTx (op : BitVec 6) (motor : BitVec 5) (c : CommandIn) : Request :=
  { port := .tx
    bytes := leBytes 2 (op.toNat * 32 + motor.toNat) ++ leBytes 1 c.valid.toNat
      ++ (realBytes c.cmd.pos ++ realBytes c.cmd.vel ++ realBytes c.cmd.trq
      ++ realBytes c.cmd.kp ++ realBytes c.cmd.kd) }

/-- An RX record. -/
def encodeRx (rx : RxIn) : Request :=
  { port := .rx
    bytes := leBytes 4 rx.id.toNat ++ leBytes 1 rx.len.toNat ++ leBytes 8 rx.data.toNat }

/-- The bytes of a range operand. -/
def rangeBytes (r : ScalarRange) : List Byte :=
  realBytes r.min ++ realBytes r.max ++ leBytes 1 r.bits.toNat

/-- The request that presents an operation; none for the four operations that no port reaches (R73). -/
def encode : Instr → Option Request
  | .quant x r => some { port := .q, bytes := realBytes x ++ rangeBytes r }
  | .dequant q r => some { port := .dq, bytes := leBytes 4 q.toNat ++ rangeBytes r }
  | .pack _ => none
  | .unpack _ _ => none
  | .idenc _ _ => none
  | .iddec _ => none
  | .buildDisable m c => some (encodeTx 1 m c)
  | .buildEnable m c => some (encodeTx 2 m c)
  | .buildControl m c => some (encodeTx 4 m c)
  | .buildUnknown op m c => some (encodeTx op m c)
  | .parseDisable rx => some (encodeRx rx)
  | .parseEnable rx => some (encodeRx rx)
  | .parseControl rx => some (encodeRx rx)
  | .parseUnknown rx => some (encodeRx rx)

/-! ### Words of spec/opcode_table.json -/

/-- The request a word of the opcode table stands for (DESIGN CHOICE, log 9). The table's identifier rows have two
widths: 11 bits is FID-TX, the TX port; 32 bits is FID-RX, the RX port. The rest of the record is zero bytes. A word
wider than an identifier is a bare payload and no transaction (R73): it is presented unpadded, and rejected. -/
def tableRequest (nbits w : Nat) : Request :=
  if nbits ≤ 16 then { port := .tx, bytes := leBytes (recordLength .tx) (w % 2 ^ nbits) }
  else if nbits ≤ 32 then { port := .rx, bytes := leBytes (recordLength .rx) (w % 2 ^ nbits) }
  else { port := .rx, bytes := leBytes ((nbits + 7) / 8) w }

/-- The instruction the decoder reads from a table word. -/
def decodeTableWord (nbits w : Nat) : Option Instr :=
  match decode (tableRequest nbits w) with
  | .ok i => some i
  | .error _ => none

end Sys2Proof
end

