-- ==== Sys2Proof/Machine/State.lean ====
section
/-! DEFINITION. The state: the host's side (transactions to come, results delivered), the output lines of the four
ports, the build-time parameters and the index of the next free value. The DMC itself holds nothing (10_state.md R20). -/

namespace Sys2Proof.Machine

/-- TX output record (R27). -/
structure TxOut where
  id      : BitVec 11
  dlc     : BitVec 4
  data    : Payload
  ok      : Bool
  err     : BitVec 2
  unknown : Bool
  deriving DecidableEq, Repr

/-- RX output record (R29). -/
structure RxOut where
  motor      : BitVec 8
  opcode     : BitVec 6
  stateValid : Bool
  pos        : F64
  vel        : F64
  trq        : F64
  temp       : F64
  fault      : Bool
  ack        : Bool
  unknown    : Bool
  malformed  : Bool
  deriving DecidableEq, Repr

/-- Q output fields (R30). -/
structure QOut where
  code  : BitVec 32
  fault : Bool
  oor   : Bool
  deriving DecidableEq, Repr

/-- DQ output fields (R31). -/
structure DqOut where
  y     : F64
  fault : Bool
  deriving DecidableEq, Repr

/-- One output record, of one transaction (R202). -/
inductive Output where
  | tx (o : TxOut)
  | rx (o : RxOut)
  | q (o : QOut)
  | dq (o : DqOut)
  deriving DecidableEq, Repr

/-- No transaction ends in a fault: an error is a value of the status outputs of its own transaction, there is no trap
and control goes nowhere (R170). So the type has no value. -/
inductive Fault where
  deriving DecidableEq, Repr

/-- Why a step has no meaning. -/
inductive Refusal where
  /-- Raised by an arm of `exec` whose instruction has no meaning yet. Safe. -/
  | notModelled (mnemonic : String)
  /-- Raised by QUANT and DEQUANT on a ScalarRange that breaks its invariant: the spec gives the transaction no meaning,
  not even a fault output (R90, D21, U5). Safe. -/
  | illFormedRange
  /-- Raised by `step` on a request that is no input record of its port: the value is not presentable (D9, U14). Safe. -/
  | notPresentable (why : DecodeError)
  deriving DecidableEq, Repr

/-- The state of the machine. INVENTORY.md, heading State, lists every field. -/
structure State where
  /-- Build-time parameters (R9, R24): no step writes them (log 4). -/
  config  : Config
  /-- Host side: the transactions presented and not yet taken, the next one first (R202, log 2). -/
  pending : List Request
  /-- Host side: the output records of the transactions done, the oldest first (R202, log 2). -/
  results : List Output
  /-- TX output lines: the record last presented (log 3). -/
  txOut   : TxOut
  /-- RX output lines. -/
  rxOut   : RxOut
  /-- Q output lines. -/
  qOut    : QOut
  /-- DQ output lines. -/
  dqOut   : DqOut
  /-- The model's own: the index of the next free value (log 5). -/
  free    : Nat
  deriving DecidableEq, Repr

/-- TX lines before the first transaction: `tx_ok = 0` (R33); the rest DESIGN CHOICE 0 (log 3, unsafe). -/
def TxOut.atReset : TxOut :=
  { id := 0, dlc := 0, data := 0, ok := false, err := 0, unknown := false }

/-- RX lines before the first transaction: `rx_state_valid = 0` and `rx_ack = 0` (R33); the rest DESIGN CHOICE 0 (log 3,
unsafe). -/
def RxOut.atReset : RxOut :=
  { motor := 0, opcode := 0, stateValid := false, pos := 0, vel := 0, trq := 0, temp := 0, fault := false
    ack := false, unknown := false, malformed := false }

/-- Q lines before the first transaction: DESIGN CHOICE 0 (log 3, unsafe). -/
def QOut.atReset : QOut := { code := 0, fault := false, oor := false }

/-- DQ lines before the first transaction: DESIGN CHOICE 0 (log 3, unsafe). -/
def DqOut.atReset : DqOut := { y := 0, fault := false }

/-- The machine right after reset (R33, R190): nothing presented, nothing delivered, the parameters at their defaults
(R9). -/
def State.reset : State :=
  { config := {}, pending := [], results := [], txOut := TxOut.atReset, rxOut := RxOut.atReset, qOut := QOut.atReset
    dqOut := DqOut.atReset, free := 0 }

end Sys2Proof.Machine
end

