-- ==== Sys2Proof/Machine/Ops.lean ====
section
/-! DEFINITION. The named operations over payloads (00_scope.md R12, 20_memory.md R43) and over the state: presenting and
taking transactions, delivering an output record. -/

namespace Sys2Proof.Machine

/-! ### Payloads -/

/-- `P[i]`, bits `8i+7 : 8i` of the port word (R43). -/
def payloadByte (p : Payload) (i : Nat) : Byte := p.extractLsb' (8 * i) 8

/-- The port word of eight bytes, byte 0 lowest (R43, R143). -/
def payloadOfBytes (b0 b1 b2 b3 b4 b5 b6 b7 : Byte) : Payload :=
  b7 ++ b6 ++ b5 ++ b4 ++ b3 ++ b2 ++ b1 ++ b0

/-- The eight bytes of a payload, byte 0 first (R40). -/
def payloadBytes (p : Payload) : List Byte := (List.range 8).map (payloadByte p)

/-- `MemRead(addr, n)` of R12, defined for `addr + n ≤ 8` only. -/
def memRead (p : Payload) (addr n : Nat) : Option Nat :=
  if addr + n ≤ 8 then some (p.toNat / 2 ^ (8 * addr) % 2 ^ (8 * n)) else none

/-- `MemWrite(addr, n, v)` of R12, defined for `addr + n ≤ 8` only. -/
def memWrite (p : Payload) (addr n v : Nat) : Option Payload :=
  if addr + n ≤ 8 then
    let old := p.toNat / 2 ^ (8 * addr) % 2 ^ (8 * n)
    some (BitVec.ofNat 64 (p.toNat - old * 2 ^ (8 * addr) + v % 2 ^ (8 * n) * 2 ^ (8 * addr)))
  else none

/-! ### The host's side of the state -/

/-- The host presents one more transaction (R203). -/
def State.present (r : Request) (s : State) : State := { s with pending := s.pending ++ [r] }

/-- A transaction is taken: its input record is sampled whole (R45, R51). -/
def State.take (rest : List Request) (s : State) : State := { s with pending := rest }

/-! ### Delivering a record -/

/-- A TX transaction completes with the record `o` (R6, R27, R202). -/
def State.emitTx (o : TxOut) (s : State) : State :=
  { s with txOut := o, results := s.results ++ [.tx o] }

/-- An RX transaction completes with the record `o` (R6, R29, R202). -/
def State.emitRx (o : RxOut) (s : State) : State :=
  { s with rxOut := o, results := s.results ++ [.rx o] }

/-- A Q transaction completes with the record `o` (R6, R30, R202). -/
def State.emitQ (o : QOut) (s : State) : State :=
  { s with qOut := o, results := s.results ++ [.q o] }

/-- A DQ transaction completes with the record `o` (R6, R31, R202). -/
def State.emitDq (o : DqOut) (s : State) : State :=
  { s with dqOut := o, results := s.results ++ [.dq o] }

/-- One free value is used up (log 5). -/
def State.draw (s : State) : State := { s with free := s.free + 1 }

/-- TX lines alone, for the parts of a BUILD that run on their own (log 8). -/
def State.setTx (o : TxOut) (s : State) : State := { s with txOut := o }

/-- RX lines alone, for the parts of a PARSE that run on their own (log 8). -/
def State.setRx (o : RxOut) (s : State) : State := { s with rxOut := o }

end Sys2Proof.Machine
end

