-- ==== Sys2Proof/Machine/Operands.lean ====
section
/-! DEFINITION. Operands: the nine scalar configurations (00_scope.md R7), the range check (40_scalar_quantizer.md R90), the
send layout (41_frame_packer.md R111) and the receive extraction (R116, R117), the identifier fields (42_frame_id.md). -/

namespace Sys2Proof.Machine

/-! ### Ranges (R7, R90) -/

def txPos : ScalarRange := { min := 0xC044000000000000#64, max := 0x4044000000000000#64, bits := 16 }
def txVel : ScalarRange := { min := 0xC044000000000000#64, max := 0x4044000000000000#64, bits := 14 }
def txTrq : ScalarRange := { min := 0xC044000000000000#64, max := 0x4044000000000000#64, bits := 16 }
def txKp : ScalarRange := { min := 0x0000000000000000#64, max := 0x408FF80000000000#64, bits := 10 }
def txKd : ScalarRange := { min := 0x0000000000000000#64, max := 0x4049800000000000#64, bits := 8 }
def rxPos : ScalarRange := { min := 0xC044000000000000#64, max := 0x4044000000000000#64, bits := 20 }
def rxVel : ScalarRange := { min := 0xC044000000000000#64, max := 0x4044000000000000#64, bits := 20 }
def rxTrq : ScalarRange := { min := 0xC044000000000000#64, max := 0x4044000000000000#64, bits := 16 }
def rxTemp : ScalarRange := { min := 0xC034000000000000#64, max := 0x4069000000000000#64, bits := 7 }

/-- `N = 2^bits - 1` over unbounded integers (R90, D5). -/
def rangeN (r : ScalarRange) : Nat := 2 ^ r.bits.toNat - 1

/-- The invariant of R90: finite bounds, `max > min`, `1 ≤ bits ≤ 32`. -/
def rangeOk (num : Numerics) (r : ScalarRange) : Bool :=
  F64.finite r.min && F64.finite r.max && num.flt r.min r.max
    && decide (1 ≤ r.bits.toNat) && decide (r.bits.toNat ≤ 32)

/-! ### The send layout (R111) -/

/-- The five 32-bit codes of R110. -/
structure SendCodes where
  pos : BitVec 32
  vel : BitVec 32
  trq : BitVec 32
  kp  : BitVec 32
  kd  : BitVec 32
  deriving DecidableEq, Repr

/-- The eight right-hand sides of R111. -/
def sendByte0 (c : SendCodes) : Byte := c.pos.extractLsb' 0 8
def sendByte1 (c : SendCodes) : Byte := c.pos.extractLsb' 8 8
def sendByte2 (c : SendCodes) : Byte := c.vel.extractLsb' 0 8
def sendByte3 (c : SendCodes) : Byte :=
  (BitVec.setWidth 8 (c.vel.extractLsb' 8 6) &&& 0x3F#8) ||| ((BitVec.setWidth 8 c.kp &&& 0x03#8) <<< 6)
def sendByte4 (c : SendCodes) : Byte := c.kp.extractLsb' 2 8
def sendByte5 (c : SendCodes) : Byte := c.kd.extractLsb' 0 8
def sendByte6 (c : SendCodes) : Byte := c.trq.extractLsb' 0 8
def sendByte7 (c : SendCodes) : Byte := c.trq.extractLsb' 8 8

/-- `layout` of R110: the byte placement of R111 as the port word of R43. -/
def sendLayout (c : SendCodes) : Payload :=
  payloadOfBytes (sendByte0 c) (sendByte1 c) (sendByte2 c) (sendByte3 c) (sendByte4 c) (sendByte5 c) (sendByte6 c)
    (sendByte7 c)

/-! ### The receive extraction (R116, R117) -/

/-- The shift amount of R9. -/
def velShift : RxVelShift → Nat
  | .zero => 0
  | .four => 4

/-- `byte0 | (byte1<<8) | ((byte2 & 0x0F)<<16)`. -/
def positionRaw (p : Payload) : BitVec 20 :=
  BitVec.setWidth 20 (payloadByte p 0) ||| (BitVec.setWidth 20 (payloadByte p 1) <<< 8)
    ||| (BitVec.setWidth 20 (payloadByte p 2 &&& 0x0F#8) <<< 16)

/-- `((byte2 & 0xF0) >> RX_VEL_SHIFT) | (byte3<<4) | (byte4<<12)`. -/
def velocityRaw (vs : RxVelShift) (p : Payload) : BitVec 20 :=
  (BitVec.setWidth 20 (payloadByte p 2 &&& 0xF0#8) >>> velShift vs)
    ||| (BitVec.setWidth 20 (payloadByte p 3) <<< 4) ||| (BitVec.setWidth 20 (payloadByte p 4) <<< 12)

/-- `byte5 | (byte6<<8)`. -/
def torqueRaw (p : Payload) : BitVec 16 :=
  BitVec.setWidth 16 (payloadByte p 5) ||| (BitVec.setWidth 16 (payloadByte p 6) <<< 8)

/-- `(byte7 & 0x01) != 0`. -/
def faultRaw (p : Payload) : Bool := (payloadByte p 7 &&& 0x01#8) != 0#8

/-- `(byte7 & 0xFF) >> 1`. -/
def tempRaw (p : Payload) : BitVec 7 := BitVec.setWidth 7 ((payloadByte p 7 &&& 0xFF#8) >>> 1)

/-! ### Identifier fields (R130, R131) -/

/-- `(opcode << 5) | motor` in 11 bits. -/
def joinId (opcode : BitVec 6) (motor : BitVec 5) : BitVec 11 :=
  (BitVec.setWidth 11 opcode <<< 5) ||| BitVec.setWidth 11 motor

/-- `zext_8(frame_id & 0x0F)`; the opcode is `rxOpcode` of Decode.lean. -/
def rxMotor (id : BitVec 32) : BitVec 8 := BitVec.setWidth 8 (id &&& 0x0F#32)

end Sys2Proof.Machine
end

