-- ==== Sys2Proof/Machine/Flags.lean ====
section
/-! DEFINITION. The status outputs: error kinds and codes (60_exceptions.md R160 to R167), what each port's record
starts from, and what raising a kind does. There is no trap (R170): `raise` sets status outputs of the same transaction
(00_scope.md R12). -/

namespace Sys2Proof.Machine

/-- The kinds that can fail a BUILD or a QUANT. -/
inductive ErrKind where
  | missingCommand
  | nonFinite
  | outOfRange
  deriving DecidableEq, Repr

/-- `tx_err` codes (R167). -/
def ErrKind.code : ErrKind → BitVec 2
  | .missingCommand => 1
  | .nonFinite => 2
  | .outOfRange => 3

/-- The record every BUILD starts from (R140). -/
def txDefaults (opcode : BitVec 6) (motor : BitVec 5) : TxOut :=
  { id := joinId opcode motor, dlc := 0, data := 0, ok := true, err := 0, unknown := false }

/-- A failed BUILD, whatever the kind (R145); `tx_id` stands. -/
def TxOut.fail (k : ErrKind) (o : TxOut) : TxOut :=
  { o with ok := false, err := k.code, dlc := 0, data := 0, unknown := false }

/-- The record every PARSE starts from (R146). -/
def rxDefaults (id : BitVec 32) : RxOut :=
  { motor := rxMotor id, opcode := rxOpcode id, stateValid := false, pos := 0, vel := 0, trq := 0, temp := 0
    fault := false, ack := false, unknown := false, malformed := false }

/-- MalformedPayload (R119, R161). -/
def RxOut.malform (o : RxOut) : RxOut :=
  { o with malformed := true, stateValid := false, pos := 0, vel := 0, trq := 0, temp := 0, fault := false }

/-- QUANT raised a kind (R94, R99): the flag of the kind is set and `q_code` is unspecified, a free value (log 5). -/
def State.raiseQ (k : ErrKind) (s : State) : State :=
  (s.emitQ { code := Config.freeCode s.free, fault := k == .nonFinite, oor := k == .outOfRange }).draw

/-- DEQUANT raised NonFinite (R98): `dq_fault` is set and `dq_y` is unspecified, a free value (log 5). -/
def State.raiseDq (s : State) : State :=
  (s.emitDq { y := Config.freeReal s.free, fault := true }).draw

end Sys2Proof.Machine
end

