-- ==== Sys2Proof/Machine/Quantizer.lean ====
section
/-! DEFINITION. QUANT and DEQUANT (40_scalar_quantizer.md). -/

namespace Sys2Proof.Machine

/-- The intermediate values of QUANT, in the order of R91 and R96. -/
structure QuantSteps where
  span : F64
  d    : F64
  m    : F64
  v    : F64
  deriving DecidableEq, Repr

/-- R91: `span`, `d`, `m`, `v`, left to right, each operation rounded once. -/
def quantSteps (num : Numerics) (x : F64) (r : ScalarRange) : QuantSteps :=
  let span := num.fsub r.max r.min
  let d := num.fsub x r.min
  let m := num.fmul d (num.u2f (rangeN r))
  { span := span, d := d, m := m, v := num.fdiv m span }

/-- The test of R94: `x`, `span`, `d`, `m` and `v` are all finite. -/
def quantFinite (x : F64) (q : QuantSteps) : Bool :=
  F64.finite x && F64.finite q.span && F64.finite q.d && F64.finite q.m && F64.finite q.v

/-- The test of R99: `x` lies outside `[min, max]`. -/
def outside (num : Numerics) (x : F64) (r : ScalarRange) : Bool := num.flt x r.min || num.flt r.max x

/-- QUANT of R91: the integer `t = trunc(v)`, or the kind raised; NonFinite is tested first (R169). -/
def quantize (num : Numerics) (strict : Bool) (x : F64) (r : ScalarRange) : Except ErrKind Int :=
  let q := quantSteps num x r
  if quantFinite x q then
    if strict && outside num x r then .error .outOfRange else .ok (num.f2i q.v)
  else .error .nonFinite

/-- `q_code = t mod 2^32` (R91, R93). -/
def codeOf (t : Int) : BitVec 32 := BitVec.ofInt 32 t

/-- The intermediate values of DEQUANT, in the order of R97. -/
structure DequantSteps where
  span : F64
  a    : F64
  b    : F64
  y    : F64
  deriving DecidableEq, Repr

/-- R97: `span`, `a`, `b`, `y`, left to right, each operation rounded once. -/
def dequantSteps (num : Numerics) (q : Nat) (r : ScalarRange) : DequantSteps :=
  let span := num.fsub r.max r.min
  let a := num.fmul (num.u2f q) span
  let b := num.fdiv a (num.u2f (rangeN r))
  { span := span, a := a, b := b, y := num.fadd b r.min }

/-- The test of R98: `span`, `a`, `b` and `y` are all finite. -/
def dequantFinite (d : DequantSteps) : Bool :=
  F64.finite d.span && F64.finite d.a && F64.finite d.b && F64.finite d.y

/-- QUANT on the Q port (R91). -/
def execQuant (x : F64) (r : ScalarRange) (s : State) : Host.Outcome State Fault Refusal :=
  if rangeOk Numerics.reference r then
    match quantize Numerics.reference s.config.strictRange x r with
    | .ok t => .next (s.emitQ { code := codeOf t, fault := false, oor := false })
    | .error k => .next (s.raiseQ k)
  else .refused .illFormedRange

/-- DEQUANT on the DQ port (R97). -/
def execDequant (code : BitVec 32) (r : ScalarRange) (s : State) : Host.Outcome State Fault Refusal :=
  if rangeOk Numerics.reference r then
    let d := dequantSteps Numerics.reference code.toNat r
    if dequantFinite d then .next (s.emitDq { y := d.y, fault := false }) else .next s.raiseDq
  else .refused .illFormedRange

end Sys2Proof.Machine
end

