-- ==== Sys2Proof/Machine/FramePacker.lean ====
section
/-! DEFINITION. PACK and UNPACK (41_frame_packer.md). -/

namespace Sys2Proof.Machine

/-- A QUANT inside PACK, as its 32-bit code (R110). -/
def quantCode (num : Numerics) (strict : Bool) (x : F64) (r : ScalarRange) : Except ErrKind (BitVec 32) :=
  match quantize num strict x r with
  | .ok t => .ok (codeOf t)
  | .error k => .error k

/-- Does a field's QUANT raise NonFinite? -/
def raisesNonFinite (c : Except ErrKind (BitVec 32)) : Bool :=
  match c with
  | .error .nonFinite => true
  | _ => false

/-- PACK (R110): the five codes laid out, or one kind raised, NonFinite before OutOfRangeInput (R121, R169). -/
def packPayload (num : Numerics) (strict : Bool) (c : MotorCommand) : Except ErrKind Payload :=
  let p := quantCode num strict c.pos txPos
  let v := quantCode num strict c.vel txVel
  let t := quantCode num strict c.trq txTrq
  let a := quantCode num strict c.kp txKp
  let d := quantCode num strict c.kd txKd
  match p, v, t, a, d with
  | .ok p32, .ok v32, .ok t32, .ok a32, .ok d32 =>
    .ok (sendLayout { pos := p32, vel := v32, trq := t32, kp := a32, kd := d32 })
  | _, _, _, _, _ =>
    if raisesNonFinite p || raisesNonFinite v || raisesNonFinite t || raisesNonFinite a || raisesNonFinite d then
      .error .nonFinite
    else .error .outOfRange

/-- MotorState (R19, R115). -/
structure MotorState where
  pos   : F64
  vel   : F64
  trq   : F64
  fault : Bool
  temp  : F64
  deriving DecidableEq, Repr

/-- UNPACK of an 8-byte payload (R115 to R117); the temperature is decoded the same way whatever the fault bit is. -/
def unpackState (num : Numerics) (vs : RxVelShift) (p : Payload) : MotorState :=
  { pos := (dequantSteps num (positionRaw p).toNat rxPos).y
    vel := (dequantSteps num (velocityRaw vs p).toNat rxVel).y
    trq := (dequantSteps num (torqueRaw p).toNat rxTrq).y
    fault := faultRaw p
    temp := (dequantSteps num (tempRaw p).toNat rxTemp).y }

/-- What UNPACK writes of an RX record: the five state fields, or MalformedPayload when the length is not 8 (R115, R119). -/
def RxOut.unpack (num : Numerics) (vs : RxVelShift) (len : BitVec 4) (p : Payload) (o : RxOut) : RxOut :=
  if len = 8 then
    let st := unpackState num vs p
    { o with pos := st.pos, vel := st.vel, trq := st.trq, fault := st.fault, temp := st.temp }
  else o.malform

/-- PACK alone (log 8): the payload on `tx_data`, or the outputs of the kind it raises. -/
def execPack (c : MotorCommand) (s : State) : Host.Outcome State Fault Refusal :=
  match packPayload Numerics.reference s.config.strictRange c with
  | .ok p => .next (s.setTx { s.txOut with data := p })
  | .error k => .next (s.setTx (s.txOut.fail k))

/-- UNPACK alone (log 8): the state lines, or MalformedPayload. -/
def execUnpack (len : BitVec 4) (p : Payload) (s : State) : Host.Outcome State Fault Refusal :=
  .next (s.setRx (s.rxOut.unpack Numerics.reference s.config.rxVelShift len p))

end Sys2Proof.Machine
end

