-- ==== Sys2Proof/Machine/Builder.lean ====
section
/-! DEFINITION. The four BUILD operations (43_builder_parser.md R140 to R145). -/

namespace Sys2Proof.Machine

/-- BUILD.DISABLE (R141): the defaults of R140; the command is ignored. -/
def execBuildDisable (motor : BitVec 5) (_command : CommandIn) (s : State) : Host.Outcome State Fault Refusal :=
  .next (s.emitTx (txDefaults 1 motor))

/-- BUILD.ENABLE (R142): the defaults of R140; the command is ignored. -/
def execBuildEnable (motor : BitVec 5) (_command : CommandIn) (s : State) : Host.Outcome State Fault Refusal :=
  .next (s.emitTx (txDefaults 2 motor))

/-- The record of BUILD.CONTROL (R143, R145, R169). -/
def controlRecord (num : Numerics) (strict : Bool) (motor : BitVec 5) (command : CommandIn) : TxOut :=
  let o := txDefaults 4 motor
  if command.valid then
    match packPayload num strict command.cmd with
    | .ok p => { o with dlc := 8, data := p }
    | .error k => o.fail k
  else o.fail .missingCommand

/-- BUILD.CONTROL (R143). -/
def execBuildControl (motor : BitVec 5) (command : CommandIn) (s : State) : Host.Outcome State Fault Refusal :=
  .next (s.emitTx (controlRecord Numerics.reference s.config.strictRange motor command))

/-- BUILD.UNKNOWN (R144): the defaults of R140 with `tx_unknown`; the command is ignored. -/
def execBuildUnknown (opcode : BitVec 6) (motor : BitVec 5) (_command : CommandIn) (s : State) :
    Host.Outcome State Fault Refusal :=
  .next (s.emitTx { txDefaults opcode motor with unknown := true })

end Sys2Proof.Machine
end

