-- ==== Sys2Proof/Machine/FrameId.lean ====
section
/-! DEFINITION. IDENC and IDDEC (42_frame_id.md). -/

namespace Sys2Proof.Machine

/-- IDENC alone (R130; log 8): `tx_id`. -/
def execIdenc (opcode : BitVec 6) (motor : BitVec 5) (s : State) : Host.Outcome State Fault Refusal :=
  .next (s.setTx { s.txOut with id := joinId opcode motor })

/-- IDDEC alone (R131; log 8): `rx_opcode` and `rx_motor`. -/
def execIddec (id : BitVec 32) (s : State) : Host.Outcome State Fault Refusal :=
  .next (s.setRx { s.rxOut with opcode := rxOpcode id, motor := rxMotor id })

end Sys2Proof.Machine
end

