-- ==== Sys2Proof/Machine/Parser.lean ====
section
/-! DEFINITION. The four PARSE operations (43_builder_parser.md R146 to R150). -/

namespace Sys2Proof.Machine

/-- PARSE.DISABLE (R148): an acknowledgment; length and data are not read. -/
def execParseDisable (rx : RxIn) (s : State) : Host.Outcome State Fault Refusal :=
  .next (s.emitRx { rxDefaults rx.id with ack := true })

/-- PARSE.ENABLE (R149): an acknowledgment; length and data are not read. -/
def execParseEnable (rx : RxIn) (s : State) : Host.Outcome State Fault Refusal :=
  .next (s.emitRx { rxDefaults rx.id with ack := true })

/-- The record of PARSE.CONTROL (R147). -/
def parsedRecord (num : Numerics) (vs : RxVelShift) (rx : RxIn) : RxOut :=
  let o := (rxDefaults rx.id).unpack num vs rx.len rx.data
  if o.malformed then o else { o with stateValid := true }

/-- PARSE.CONTROL (R147). -/
def execParseControl (rx : RxIn) (s : State) : Host.Outcome State Fault Refusal :=
  .next (s.emitRx (parsedRecord Numerics.reference s.config.rxVelShift rx))

/-- PARSE.UNKNOWN (R150): informational; length and data are not read. -/
def execParseUnknown (rx : RxIn) (s : State) : Host.Outcome State Fault Refusal :=
  .next (s.emitRx { rxDefaults rx.id with unknown := true })

end Sys2Proof.Machine
end

