-- ==== Sys2Proof/Machine/Dispatch.lean ====
section
/-! DEFINITION. One arm per operation of 30_encoding.md R74. -/

namespace Sys2Proof.Machine

def exec (i : Instr) (s : State) : Host.Outcome State Fault Refusal :=
  match i with
  | .quant x r => Sys2Proof.Machine.execQuant x r s
  | .dequant q r => Sys2Proof.Machine.execDequant q r s
  | .pack c => Sys2Proof.Machine.execPack c s
  | .unpack n p => Sys2Proof.Machine.execUnpack n p s
  | .idenc op m => Sys2Proof.Machine.execIdenc op m s
  | .iddec id => Sys2Proof.Machine.execIddec id s
  | .buildDisable m c => Sys2Proof.Machine.execBuildDisable m c s
  | .buildEnable m c => Sys2Proof.Machine.execBuildEnable m c s
  | .buildControl m c => Sys2Proof.Machine.execBuildControl m c s
  | .buildUnknown op m c => Sys2Proof.Machine.execBuildUnknown op m c s
  | .parseDisable rx => Sys2Proof.Machine.execParseDisable rx s
  | .parseEnable rx => Sys2Proof.Machine.execParseEnable rx s
  | .parseControl rx => Sys2Proof.Machine.execParseControl rx s
  | .parseUnknown rx => Sys2Proof.Machine.execParseUnknown rx s

end Sys2Proof.Machine
end

