-- ==== Sys2Proof/Machine/Transport.lean ====
section
/-! DEFINITION. The DMC's side of the transport boundary (20_memory.md R52, 70_reset_and_hazards.md R199). The transport
itself is out of scope (00_scope.md R5). -/

namespace Sys2Proof.Machine

/-- A call of the transport's `send(frame_id: u32, dlc: u8, payload: Payload)` (R52). -/
structure SendCall where
  frameId : BitVec 32
  dlc     : BitVec 8
  payload : Payload
  deriving DecidableEq, Repr

/-- What the host sends after a BUILD: nothing unless `tx_ok = 1` (R52, R199). -/
def sendCall (o : TxOut) : Option SendCall :=
  if o.ok then some { frameId := o.id.setWidth 32, dlc := o.dlc.setWidth 8, payload := o.data } else none

/-- The bytes that go out: exactly `tx_dlc` of them, byte 0 first (R43, R199). -/
def SendCall.wireBytes (c : SendCall) : List Byte := (payloadBytes c.payload).take c.dlc.toNat

/-- The RX input record the host presents for a received frame: `rx_len = min(length, 15)`, the first `min(length, 8)`
bytes in `rx_data` (R52). Bytes above the length are don't-care (R28); they are 0 here (log 14). -/
def receivedFrame (id : BitVec 32) (payload : List Byte) : RxIn :=
  { id := id, len := BitVec.ofNat 4 (Nat.min payload.length 15), data := BitVec.ofNat 64 (leNat (payload.take 8)) }

/-- After the transport's `receive`: the frame is presented to PARSE; on the absence signal nothing is (R52, R174). -/
def State.presentReceived (answer : Option (BitVec 32 × List Byte)) (s : State) : State :=
  match answer with
  | none => s
  | some (id, payload) => s.present (encodeRx (receivedFrame id payload))

end Sys2Proof.Machine
end

