-- ==== Sys2Proof/Machine/Step.lean ====
section
/-! DEFINITION. One step: the next presented transaction is taken whole, decoded and run (00_scope.md R6, 20_memory.md
R45, R51). -/

namespace Sys2Proof.Machine

/-- One step. With nothing presented the machine idles (R202; log 7). -/
def step (s : State) : Host.Outcome State Fault Refusal :=
  match s.pending with
  | [] => .next s
  | r :: rest =>
    match decode r with
    | .ok i => exec i (s.take rest)
    | .error e => .refused (.notPresentable e)

/-- The state in which the next step takes the transaction of a table word (log 9). -/
def State.withFetchWord (s : State) (nbits w : Nat) : State :=
  { s with pending := tableRequest nbits w :: s.pending }

end Sys2Proof.Machine
end

