-- ==== Sys2Proof/Safety.lean ====
section
/-! DEFINITION. The terms the claims use: which output records are lawful, the invariant of the machine, what of an output
record has a value, which requests have a meaning, and what a transaction answers alone. -/

namespace Sys2Proof.Machine

/-! ### Lawful output records -/

/-- Bits 10:5 of a built identifier (R60). -/
def TxOut.opcode (o : TxOut) : BitVec 6 := o.id.extractLsb' 5 6

/-- One of the three opcodes of R68. -/
def IsKnown (op : BitVec 6) : Prop := op = 1 ∨ op = 2 ∨ op = 4

/-- TX: `tx_err != 0` exactly when `tx_ok = 0` (R167); eight bytes for a built Control and none otherwise (R65, R145);
no byte, no data (R43); `tx_unknown` exactly for the other opcodes (R144, R145). -/
def TxOut.Lawful (o : TxOut) : Prop :=
  (o.err = 0 ↔ o.ok = true)
  ∧ o.dlc = (if o.ok = true ∧ o.opcode = 4 then 8 else 0)
  ∧ (o.dlc = 0 → o.data = 0)
  ∧ (o.unknown = true ↔ ¬ IsKnown o.opcode)
  ∧ (o.ok = false → o.opcode = 4)

/-- RX: exactly one of the four flags, the one its opcode allows (R167, R147 to R150); motor below 16 (R29); without a
state the state lines are zero (R29). -/
def RxOut.Lawful (o : RxOut) : Prop :=
  (o.ack = true ↔ o.opcode = 1 ∨ o.opcode = 2)
  ∧ (o.unknown = true ↔ ¬ IsKnown o.opcode)
  ∧ (o.opcode = 4 ↔ (o.stateValid = true ∨ o.malformed = true))
  ∧ ¬ (o.stateValid = true ∧ o.malformed = true)
  ∧ o.motor.toNat < 16
  ∧ (o.stateValid = false → o.pos = 0 ∧ o.vel = 0 ∧ o.trq = 0 ∧ o.temp = 0 ∧ o.fault = false)

/-- Q: at most one flag, and `q_oor` only in the strict variant (R23, R94, R99). -/
def QOut.Lawful (cfg : Config) (o : QOut) : Prop :=
  ¬ (o.fault = true ∧ o.oor = true) ∧ (o.oor = true → cfg.strictRange = true)

/-- DQ: without a fault the result is a finite number (R98). -/
def DqOut.Lawful (o : DqOut) : Prop := o.fault = false → F64.finite o.y = true

def Output.Lawful (cfg : Config) : Output → Prop
  | .tx o => o.Lawful
  | .rx o => o.Lawful
  | .q o => o.Lawful cfg
  | .dq o => o.Lawful

/-! ### The invariant -/

/-- The TX record last delivered in a list of results, or the lines of reset. -/
def lastTx (rs : List Output) : TxOut :=
  rs.foldl (fun o r => match r with | .tx t => t | _ => o) TxOut.atReset

def lastRx (rs : List Output) : RxOut :=
  rs.foldl (fun o r => match r with | .rx t => t | _ => o) RxOut.atReset

def lastQ (rs : List Output) : QOut :=
  rs.foldl (fun o r => match r with | .q t => t | _ => o) QOut.atReset

def lastDq (rs : List Output) : DqOut :=
  rs.foldl (fun o r => match r with | .dq t => t | _ => o) DqOut.atReset

/-- Every record delivered is lawful, and the lines of each port show the record that port delivered last, whatever the
other ports did since (R32), or what they show at reset (R33). -/
structure State.Inv (s : State) : Prop where
  lawful : ∀ o ∈ s.results, o.Lawful s.config
  tx : s.txOut = lastTx s.results
  rx : s.rxOut = lastRx s.results
  q : s.qOut = lastQ s.results
  dq : s.dqOut = lastDq s.results

/-! ### What of a record has a value -/

/-- An output record without the fields to which the spec gives no value (R94, R98, R99). -/
inductive View where
  | tx (o : TxOut)
  | rx (o : RxOut)
  | q (code : Option (BitVec 32)) (fault oor : Bool)
  | dq (y : Option F64) (fault : Bool)
  deriving DecidableEq, Repr

def Output.view : Output → View
  | .tx o => .tx o
  | .rx o => .rx o
  | .q o => .q (if o.fault || o.oor then none else some o.code) o.fault o.oor
  | .dq o => .dq (if o.fault then none else some o.y) o.fault

/-! ### Requests with a meaning, and what they answer -/

/-- The range operand, where there is one, keeps its invariant (R90). -/
def rangesOk : Instr → Bool
  | .quant _ r => rangeOk Numerics.reference r
  | .dequant _ r => rangeOk Numerics.reference r
  | .pack _ => true
  | .unpack _ _ => true
  | .idenc _ _ => true
  | .iddec _ => true
  | .buildDisable _ _ => true
  | .buildEnable _ _ => true
  | .buildControl _ _ => true
  | .buildUnknown _ _ _ => true
  | .parseDisable _ => true
  | .parseEnable _ => true
  | .parseControl _ => true
  | .parseUnknown _ => true

/-- A request that is an input record of its port and inside the DMC's contract. -/
def accepted (r : Request) : Bool :=
  match decode r with
  | .ok i => rangesOk i
  | .error _ => false

/-- What a transaction answers alone, on a machine that has done nothing before (R32, R49). -/
def alone (cfg : Config) (r : Request) : Option View :=
  match step { State.reset with config := cfg, pending := [r] } with
  | .next t => t.results.getLast?.map Output.view
  | .fault _ => none
  | .refused _ => none

/-- The port an operation belongs to: the parts of BUILD to TX, the parts of PARSE to RX (R73, R74). -/
def portOf : Instr → Port
  | .quant _ _ => .q
  | .dequant _ _ => .dq
  | .pack _ => .tx
  | .unpack _ _ => .rx
  | .idenc _ _ => .tx
  | .iddec _ => .rx
  | .buildDisable _ _ => .tx
  | .buildEnable _ _ => .tx
  | .buildControl _ _ => .tx
  | .buildUnknown _ _ _ => .tx
  | .parseDisable _ => .rx
  | .parseEnable _ => .rx
  | .parseControl _ => .rx
  | .parseUnknown _ => .rx

/-- The five command fields with their ranges, in the order of R110. -/
def commandFields (c : MotorCommand) : List (F64 × ScalarRange) :=
  [(c.pos, txPos), (c.vel, txVel), (c.trq, txTrq), (c.kp, txKp), (c.kd, txKd)]

/-- `x` is a finite number of `[min, max]` (R99: the ends are in range). -/
def InRange (x : F64) (r : ScalarRange) : Prop :=
  F64.finite x = true ∧ F64.units r.min ≤ F64.units x ∧ F64.units x ≤ F64.units r.max

end Sys2Proof.Machine
end

