-- ==== Sys2Proof/WellFormed.lean ====
section
/-! DEFINITION. Which terms of `Instr` are transactions of the DMC: the opcode an operation carries is the one that
selects it (30_encoding.md R68, R74). A ScalarRange is checked by the meanings of QUANT and DEQUANT (R90), not here: it
is data on the port. -/

namespace Sys2Proof

/-- One of the three known opcode values (R68). -/
def knownOpcode (op : BitVec 6) : Bool := op == 1 || op == 2 || op == 4

/-- `rx_id[10:5]` (R61, R70), as the slice of R10. -/
def opcodeField (id : BitVec 32) : BitVec 6 := id.extractLsb' 5 6

/-- The selection column of R74. -/
def WellFormed : Instr → Bool
  | .quant _ _ => true
  | .dequant _ _ => true
  | .pack _ => true
  | .unpack _ _ => true
  | .idenc _ _ => true
  | .iddec _ => true
  | .buildDisable _ _ => true
  | .buildEnable _ _ => true
  | .buildControl _ _ => true
  | .buildUnknown op _ _ => !knownOpcode op
  | .parseDisable rx => opcodeField rx.id == 1
  | .parseEnable rx => opcodeField rx.id == 2
  | .parseControl rx => opcodeField rx.id == 4
  | .parseUnknown rx => !knownOpcode (opcodeField rx.id)

end Sys2Proof
end

