-- ==== Sys2Proof/Certificates/Slice0/Obligations.lean ====
section
/-! DEFINITION. The statements for the provers. Each docstring names the rules of spec/ it formalises, or says what of it is
the model's choice. -/

open Sys2Proof Sys2Proof.Machine

/-- A step takes the next presented transaction and runs the operation it decodes to. Derived from 00_scope.md R6,
20_memory.md R45, R51. NOTE: The queue and its byte form are the model's own, log 1 and log 2. -/
def Obligations.StepRunsTheDecodedTransaction : Prop :=
  ∀ (s : State) (r : Request) (rest : List Request) (i : Instr),
    s.pending = r :: rest → decode r = .ok i → step s = exec i { s with pending := rest }

/-- With nothing presented the machine idles; a request that is no input record is refused by name. Derived from
70_reset_and_hazards.md R202, 93_implementation_defined.md U14. NOTE: the model's choice, log 7; the model's form of
'not presentable', log 11. -/
def Obligations.StepIdlesOrRefusesWithoutATransaction : Prop :=
  (∀ s : State, s.pending = [] → step s = .next s)
  ∧ (∀ (s : State) (r : Request) (rest : List Request) (e : DecodeError),
      s.pending = r :: rest → decode r = .error e → step s = .refused (.notPresentable e))

/-- Decoding the request that presents a well-formed instruction gives the instruction back. Derived from 30_encoding.md
R60, R61, R68, R70, R74, 10_state.md R26, R28, R30, R31. NOTE: The byte form of a request is the model's own, log 1. -/
def Obligations.DecodeInvertsEncode : Prop :=
  ∀ (i : Instr) (r : Request), WellFormed i = true → encode i = some r → decode r = .ok i

/-- Every request the decoder accepts has one meaning, and it is that of a port operation. Derived from 30_encoding.md
R70, R73, R74. NOTE: That exactly one request stands for an instruction rests on the model's own byte layout, log 1,
and on its refusal of bytes too wide for their field, log 11. -/
def Obligations.EncodeInvertsDecode : Prop :=
  ∀ (r : Request) (i : Instr), decode r = .ok i → WellFormed i = true ∧ encode i = some r

/-- Identifier words written out from the opcode table decode to the rows they stand for. Derived from 30_encoding.md
R60, R61, R68, 95_test_vectors.md V-I-01 to V-I-07. NOTE: Which port a bare word belongs to is the model's choice,
log 9. -/
def Obligations.TableWordsDecodeToTheirRows : Prop :=
  (∃ c, decodeTableWord 16 0x023 = some (.buildDisable 3 c))
  ∧ (∃ c, decodeTableWord 16 0x041 = some (.buildEnable 1 c))
  ∧ (∃ c, decodeTableWord 16 0x081 = some (.buildControl 1 c))
  ∧ (∃ c, decodeTableWord 16 0x0E3 = some (.buildUnknown 7 3 c))
  ∧ decodeTableWord 32 0x023 = some (.parseDisable { id := 0x023, len := 0, data := 0 })
  ∧ decodeTableWord 32 0x041 = some (.parseEnable { id := 0x041, len := 0, data := 0 })
  ∧ decodeTableWord 32 0x090 = some (.parseControl { id := 0x090, len := 0, data := 0 })
  ∧ decodeTableWord 32 0x0E3 = some (.parseUnknown { id := 0x0E3, len := 0, data := 0 })

/-- On TX and RX the opcode alone selects the operation, for every input record. Derived from 43_builder_parser.md R140,
R146, 30_encoding.md R68, R70. NOTE: The byte form of a request is the model's own, log 1. -/
def Obligations.OpcodeSelectsTheOperation : Prop :=
  (∀ (op : BitVec 6) (m : BitVec 5) (c : CommandIn),
    decode (encodeTx op m c) =
      .ok (if op = 1 then .buildDisable m c else if op = 2 then .buildEnable m c
        else if op = 4 then .buildControl m c else .buildUnknown op m c))
  ∧ (∀ rx : RxIn,
    decode (encodeRx rx) =
      .ok (if rx.id.extractLsb' 5 6 = 1 then .parseDisable rx else if rx.id.extractLsb' 5 6 = 2 then .parseEnable rx
        else if rx.id.extractLsb' 5 6 = 4 then .parseControl rx else .parseUnknown rx))

/-- IDENC puts the opcode in bits 10:5 and the motor address in bits 4:0 of tx_id, and changes nothing else. Derived
from 42_frame_id.md R130. NOTE: That a part run alone writes its lines, delivers no record and leaves the rest is
the model's choice, log 8. -/
def Obligations.IdencJoinsOpcodeAndAddress : Prop :=
  ∀ (op : BitVec 6) (m : BitVec 5) (s : State),
    ∃ id : BitVec 11,
      id = ((op.setWidth 11 <<< 5) ||| m.setWidth 11)
      ∧ id.toNat = 32 * op.toNat + m.toNat ∧ id.extractLsb' 5 6 = op ∧ id.extractLsb' 0 5 = m
      ∧ exec (.idenc op m) s = .next { s with txOut := { s.txOut with id := id } }

/-- IDDEC reads bits 10:5 and 3:0 of the identifier, and changes nothing but rx_opcode and rx_motor. Derived from
42_frame_id.md R131. NOTE: That a part run alone writes its lines, delivers no record and leaves the rest is the
model's choice, log 8. -/
def Obligations.IddecReadsOpcodeAndFourAddressBits : Prop :=
  (∀ (id : BitVec 32) (s : State),
    exec (.iddec id) s =
      .next { s with rxOut := { s.rxOut with opcode := id.extractLsb' 5 6, motor := (id.extractLsb' 0 4).setWidth 8 } })
  ∧ (∀ (id id' : BitVec 32) (s : State),
      id &&& 0x7EF#32 = id' &&& 0x7EF#32 → exec (.iddec id) s = exec (.iddec id') s)

/-- IDDEC after IDENC gives the opcode and motor mod 16; IDENC after IDDEC gives the identifier under 0x7EF. Formalises
R133. -/
def Obligations.IdentifierRoundTrips : Prop :=
  (∀ (op : BitVec 6) (m : BitVec 5),
    rxOpcode ((joinId op m).setWidth 32) = op ∧ (rxMotor ((joinId op m).setWidth 32)).toNat = m.toNat % 16)
  ∧ (∀ id : BitVec 32, (joinId (rxOpcode id) ((rxMotor id).setWidth 5)).setWidth 32 = id &&& 0x7EF#32)

/-- Two frames whose identifiers differ only in bits 31:11 and 4 parse alike; so motors m and m+16 alias. Derived from
42_frame_id.md R131, R132, 70_reset_and_hazards.md R195, 93_implementation_defined.md U7. -/
def Obligations.IgnoredIdentifierBitsAreNotRead : Prop :=
  (∀ (rx rx' : RxIn) (s : State),
    rx.id &&& 0x7EF#32 = rx'.id &&& 0x7EF#32 → rx.len = rx'.len → rx.data = rx'.data →
      exec (selectParse rx) s = exec (selectParse rx') s)
  ∧ (∀ (op : BitVec 6) (m : BitVec 5) (len : BitVec 4) (data : Payload) (s : State),
    exec (selectParse { id := (joinId op m).setWidth 32, len := len, data := data }) s =
      exec (selectParse { id := (joinId op (m ^^^ 16#5)).setWidth 32, len := len, data := data }) s)

/-- BUILD.DISABLE and BUILD.ENABLE always build an empty frame with their identifier; the command is ignored. Formalises
R141, R142. -/
def Obligations.DisableAndEnableFramesAreBuilt : Prop :=
  ∀ (m : BitVec 5) (c : CommandIn) (s : State),
    (let o : TxOut :=
        { id := BitVec.ofNat 11 (32 + m.toNat), dlc := 0, data := 0, ok := true, err := 0, unknown := false };
      exec (.buildDisable m c) s = .next { s with txOut := o, results := s.results ++ [.tx o] })
    ∧ (let o : TxOut :=
        { id := BitVec.ofNat 11 (64 + m.toNat), dlc := 0, data := 0, ok := true, err := 0, unknown := false };
      exec (.buildEnable m c) s = .next { s with txOut := o, results := s.results ++ [.tx o] })

/-- BUILD.UNKNOWN builds a sendable empty frame for every opcode but 1, 2 and 4, and says so in tx_unknown. Formalises
R144. -/
def Obligations.UnknownOpcodeFrameIsBuilt : Prop :=
  ∀ (op : BitVec 6) (m : BitVec 5) (c : CommandIn) (s : State),
    op ≠ 1 → op ≠ 2 → op ≠ 4 →
    let o : TxOut :=
      { id := BitVec.ofNat 11 (32 * op.toNat + m.toNat), dlc := 0, data := 0, ok := true, err := 0, unknown := true }
    exec (.buildUnknown op m c) s = .next { s with txOut := o, results := s.results ++ [.tx o] }

/-- BUILD.CONTROL without a command is the failed BUILD of MissingCommand, whatever the command fields hold. Formalises
R165. -/
def Obligations.ControlWithoutCommandFails : Prop :=
  ∀ (m : BitVec 5) (fields : MotorCommand) (s : State),
    let o : TxOut :=
      { id := BitVec.ofNat 11 (128 + m.toNat), dlc := 0, data := 0, ok := false, err := 1, unknown := false }
    exec (.buildControl m { valid := false, cmd := fields }) s =
      .next { s with txOut := o, results := s.results ++ [.tx o] }

/-- A Control build with a non-finite field fails with tx_err 2, even when another field is out of range. Derived from
41_frame_packer.md R121, 43_builder_parser.md R145, 60_exceptions.md R166, R167, R169. -/
def Obligations.ControlWithNonFiniteFieldFails : Prop :=
  ∀ (m : BitVec 5) (fields : MotorCommand) (s : State),
    (∃ f ∈ commandFields fields, quantFinite f.1 (quantSteps Numerics.reference f.1 f.2) = false) →
    let o : TxOut :=
      { id := BitVec.ofNat 11 (128 + m.toNat), dlc := 0, data := 0, ok := false, err := 2, unknown := false }
    exec (.buildControl m { valid := true, cmd := fields }) s =
      .next { s with txOut := o, results := s.results ++ [.tx o] }

/-- With STRICT_RANGE = 1 a Control build with a field out of range fails with tx_err 3. Derived from 41_frame_packer.md
R121, 40_scalar_quantizer.md R99, 60_exceptions.md R162, R167, R169. -/
def Obligations.StrictControlOutOfRangeFails : Prop :=
  ∀ (m : BitVec 5) (fields : MotorCommand) (s : State),
    s.config.strictRange = true →
    (∀ f ∈ commandFields fields, quantFinite f.1 (quantSteps Numerics.reference f.1 f.2) = true) →
    (∃ f ∈ commandFields fields,
      F64.units f.1 < F64.units f.2.min ∨ F64.units f.2.max < F64.units f.1) →
    let o : TxOut :=
      { id := BitVec.ofNat 11 (128 + m.toNat), dlc := 0, data := 0, ok := false, err := 3, unknown := false }
    exec (.buildControl m { valid := true, cmd := fields }) s =
      .next { s with txOut := o, results := s.results ++ [.tx o] }

/-- A Control build without an error carries eight bytes: the five truncated quotients, each modulo its field width.
Derived from 43_builder_parser.md R143, 41_frame_packer.md R110, R112, 40_scalar_quantizer.md R91, R95. -/
def Obligations.ControlFrameIsBuilt : Prop :=
  ∀ (m : BitVec 5) (fields : MotorCommand) (s : State),
    (∀ f ∈ commandFields fields, quantFinite f.1 (quantSteps Numerics.reference f.1 f.2) = true) →
    (s.config.strictRange = true → ∀ f ∈ commandFields fields,
      F64.units f.2.min ≤ F64.units f.1 ∧ F64.units f.1 ≤ F64.units f.2.max) →
    ∃ p : Payload,
      p.extractLsb' 0 16 = BitVec.ofInt 16 (f2i (quantSteps Numerics.reference fields.pos txPos).v)
      ∧ p.extractLsb' 16 14 = BitVec.ofInt 14 (f2i (quantSteps Numerics.reference fields.vel txVel).v)
      ∧ p.extractLsb' 30 10 = BitVec.ofInt 10 (f2i (quantSteps Numerics.reference fields.kp txKp).v)
      ∧ p.extractLsb' 40 8 = BitVec.ofInt 8 (f2i (quantSteps Numerics.reference fields.kd txKd).v)
      ∧ p.extractLsb' 48 16 = BitVec.ofInt 16 (f2i (quantSteps Numerics.reference fields.trq txTrq).v)
      ∧ (let o : TxOut :=
          { id := BitVec.ofNat 11 (128 + m.toNat), dlc := 8, data := p, ok := true, err := 0, unknown := false };
          exec (.buildControl m { valid := true, cmd := fields }) s =
            .next { s with txOut := o, results := s.results ++ [.tx o] })

/-- A command with every field in range is always built, under both settings, and no field wraps. Derived from
43_builder_parser.md R143, 40_scalar_quantizer.md R95, R100, 70_reset_and_hazards.md R192. -/
def Obligations.InRangeCommandIsBuiltFaithfully : Prop :=
  ∀ (m : BitVec 5) (fields : MotorCommand) (s : State),
    (∀ f ∈ commandFields fields, InRange f.1 f.2) →
    (∀ f ∈ commandFields fields,
      0 ≤ f2i (quantSteps Numerics.reference f.1 f.2).v
      ∧ f2i (quantSteps Numerics.reference f.1 f.2).v ≤ 2 ^ f.2.bits.toNat - 1)
    ∧ ∃ p : Payload,
      ((p.extractLsb' 0 16).toNat : Int) = f2i (quantSteps Numerics.reference fields.pos txPos).v
      ∧ ((p.extractLsb' 16 14).toNat : Int) = f2i (quantSteps Numerics.reference fields.vel txVel).v
      ∧ ((p.extractLsb' 30 10).toNat : Int) = f2i (quantSteps Numerics.reference fields.kp txKp).v
      ∧ ((p.extractLsb' 40 8).toNat : Int) = f2i (quantSteps Numerics.reference fields.kd txKd).v
      ∧ ((p.extractLsb' 48 16).toNat : Int) = f2i (quantSteps Numerics.reference fields.trq txTrq).v
      ∧ (let o : TxOut :=
          { id := BitVec.ofNat 11 (128 + m.toNat), dlc := 8, data := p, ok := true, err := 0, unknown := false };
          exec (.buildControl m { valid := true, cmd := fields }) s =
            .next { s with txOut := o, results := s.results ++ [.tx o] })

/-- The byte placement of R111 is the word pos16 | vel14 << 16 | kp10 << 30 | kd8 << 40 | trq16 << 48. Formalises R112. -/
def Obligations.SendBytesAreTheSendWord : Prop :=
  ∀ c : SendCodes,
    sendLayout c =
      (((c.pos.setWidth 16).setWidth 64) ||| ((c.vel.setWidth 14).setWidth 64 <<< 16)
        ||| ((c.kp.setWidth 10).setWidth 64 <<< 30) ||| ((c.kd.setWidth 8).setWidth 64 <<< 40)
        ||| ((c.trq.setWidth 16).setWidth 64 <<< 48))
    ∧ (sendLayout c).toNat =
      c.pos.toNat % 2 ^ 16 + (c.vel.toNat % 2 ^ 14) * 2 ^ 16 + (c.kp.toNat % 2 ^ 10) * 2 ^ 30
        + (c.kd.toNat % 2 ^ 8) * 2 ^ 40 + (c.trq.toNat % 2 ^ 16) * 2 ^ 48

/-- Every payload bit is one bit of one code; changing kp's low two bits leaves byte 3's low six bits alone. Formalises
R113. -/
def Obligations.EveryPayloadBitComesFromOneCodeBit : Prop :=
  (∀ (c : SendCodes) (i : Nat),
    (sendLayout c).getLsbD i =
      if i < 16 then c.pos.getLsbD i else if i < 30 then c.vel.getLsbD (i - 16)
      else if i < 40 then c.kp.getLsbD (i - 30) else if i < 48 then c.kd.getLsbD (i - 40)
      else if i < 64 then c.trq.getLsbD (i - 48) else false)
  ∧ (∀ (c : SendCodes) (k : BitVec 32), (∀ j, 2 ≤ j → k.getLsbD j = c.kp.getLsbD j) →
      payloadByte (sendLayout { c with kp := k }) 3 &&& 0x3F#8 = payloadByte (sendLayout c) 3 &&& 0x3F#8)

/-- PACK alone writes tx_data with the five fields; on an error it sets the failed outputs of the kind it raises.
Derived from 41_frame_packer.md R110, R112, R121, 60_exceptions.md R169, 00_scope.md R12. NOTE: That a part run
alone writes these lines is the model's choice, log 8. -/
def Obligations.PackWritesThePayloadOrRaises : Prop :=
  ∀ (c : MotorCommand) (s : State),
    ((∀ f ∈ commandFields c, quantFinite f.1 (quantSteps Numerics.reference f.1 f.2) = true) →
      (s.config.strictRange = true → ∀ f ∈ commandFields c,
        F64.units f.2.min ≤ F64.units f.1 ∧ F64.units f.1 ≤ F64.units f.2.max) →
      ∃ p : Payload,
        p.extractLsb' 0 16 = BitVec.ofInt 16 (f2i (quantSteps Numerics.reference c.pos txPos).v)
        ∧ p.extractLsb' 16 14 = BitVec.ofInt 14 (f2i (quantSteps Numerics.reference c.vel txVel).v)
        ∧ p.extractLsb' 30 10 = BitVec.ofInt 10 (f2i (quantSteps Numerics.reference c.kp txKp).v)
        ∧ p.extractLsb' 40 8 = BitVec.ofInt 8 (f2i (quantSteps Numerics.reference c.kd txKd).v)
        ∧ p.extractLsb' 48 16 = BitVec.ofInt 16 (f2i (quantSteps Numerics.reference c.trq txTrq).v)
        ∧ exec (.pack c) s = .next { s with txOut := { s.txOut with data := p } })
    ∧ ((∃ f ∈ commandFields c, quantFinite f.1 (quantSteps Numerics.reference f.1 f.2) = false) →
      exec (.pack c) s =
        .next { s with txOut := { id := s.txOut.id, dlc := 0, data := 0, ok := false, err := 2, unknown := false } })
    ∧ (s.config.strictRange = true →
      (∀ f ∈ commandFields c, quantFinite f.1 (quantSteps Numerics.reference f.1 f.2) = true) →
      (∃ f ∈ commandFields c, F64.units f.1 < F64.units f.2.min ∨ F64.units f.2.max < F64.units f.1) →
      exec (.pack c) s =
        .next { s with txOut := { id := s.txOut.id, dlc := 0, data := 0, ok := false, err := 3, unknown := false } })

/-- With STRICT_RANGE = 0 and five finite inputs below 10^300 in magnitude, PACK and BUILD.CONTROL cannot fail. Derived
from 41_frame_packer.md R121. NOTE: That PACK run alone writes tx_data and nothing else is the model's choice, log
8. -/
def Obligations.PackCannotFailOnModerateInputs : Prop :=
  ∀ (c : MotorCommand) (m : BitVec 5) (s : State),
    s.config.strictRange = false →
    (∀ f ∈ commandFields c, F64.finite f.1 = true ∧ F64.mag f.1 < 10 ^ 300 * F64.one) →
    ∃ p : Payload,
      exec (.pack c) s = .next { s with txOut := { s.txOut with data := p } }
      ∧ (let o : TxOut :=
          { id := BitVec.ofNat 11 (128 + m.toNat), dlc := 8, data := p, ok := true, err := 0, unknown := false };
          exec (.buildControl m { valid := true, cmd := c }) s =
            .next { s with txOut := o, results := s.results ++ [.tx o] })

/-- QUANT: subtract, multiply by N, divide by span, truncate, modulo 2^32; or one of the two errors. Derived from
40_scalar_quantizer.md R91, R94, R99. NOTE: That the transaction then completes with a free code, and the index of
the next free value may change, is the model's choice, log 5. -/
def Obligations.QuantRunsByTheFormula : Prop :=
  ∀ (x : F64) (r : ScalarRange) (s : State),
    rangeOk Numerics.reference r = true →
    let span := fsub r.max r.min
    let d := fsub x r.min
    let m := fmul d (u2f (2 ^ r.bits.toNat - 1))
    let v := fdiv m span
    let finite := F64.finite x && F64.finite span && F64.finite d && F64.finite m && F64.finite v
    let out := s.config.strictRange && (flt x r.min || flt r.max x)
    (finite = false → ∃ code k,
      exec (.quant x r) s =
        .next { s with
          qOut := { code := code, fault := true, oor := false }
          results := s.results ++ [.q { code := code, fault := true, oor := false }], free := k })
    ∧ (finite = true → out = true → ∃ code k,
      exec (.quant x r) s =
        .next { s with
          qOut := { code := code, fault := false, oor := true }
          results := s.results ++ [.q { code := code, fault := false, oor := true }], free := k })
    ∧ (finite = true → out = false →
      let o : QOut := { code := BitVec.ofInt 32 (f2i v), fault := false, oor := false }
      exec (.quant x r) s = .next { s with qOut := o, results := s.results ++ [.q o] })

/-- QUANT and DEQUANT refuse a transaction exactly when its range breaks the invariant of R90. Formalises R90. -/
def Obligations.IllFormedRangeIsRefused : Prop :=
  ∀ (x : F64) (q : BitVec 32) (r : ScalarRange) (s : State),
    (exec (.quant x r) s = .refused .illFormedRange ↔
      ¬ (F64.finite r.min = true ∧ F64.finite r.max = true ∧ F64.units r.min < F64.units r.max
        ∧ 1 ≤ r.bits.toNat ∧ r.bits.toNat ≤ 32))
    ∧ (exec (.dequant q r) s = .refused .illFormedRange ↔
      ¬ (F64.finite r.min = true ∧ F64.finite r.max = true ∧ F64.units r.min < F64.units r.max
        ∧ 1 ≤ r.bits.toNat ∧ r.bits.toNat ≤ 32))

/-- u2f is exact below 2^32, and f2i truncates toward zero. Formalises R16. -/
def Obligations.ConversionsAreExactAndTruncate : Prop :=
  (∀ n : Nat, n < 2 ^ 32 → F64.finite (u2f n) = true ∧ F64.units (u2f n) = (n : Int) * F64.one)
  ∧ (∀ a : F64, F64.finite a = true →
      ((f2i a).natAbs : Int) * F64.one ≤ |F64.units a|
      ∧ |F64.units a| < (((f2i a).natAbs : Int) + 1) * F64.one
      ∧ (0 ≤ F64.units a → 0 ≤ f2i a) ∧ (F64.units a ≤ 0 → f2i a ≤ 0))
  ∧ f2i 0x0000000000000000#64 = 0 ∧ f2i 0x8000000000000000#64 = 0

/-- A finite quotient of magnitude 2^85 or more gives q_code 0. Derived from 40_scalar_quantizer.md R93. -/
def Obligations.HugeQuotientsGiveCodeZero : Prop :=
  ∀ a : F64, F64.finite a = true → 2 ^ 85 * F64.one ≤ F64.mag a → codeOf (f2i a) = 0

/-- For a fixed range, a larger x never gives a smaller truncated quotient. Derived from 40_scalar_quantizer.md R101,
00_scope.md R14, R15. -/
def Obligations.QuantIsMonotone : Prop :=
  ∀ (strict : Bool) (r : ScalarRange) (x y : F64) (t u : Int),
    rangeOk Numerics.reference r = true → F64.units x ≤ F64.units y →
    quantize Numerics.reference strict x r = .ok t → quantize Numerics.reference strict y r = .ok u → t ≤ u

/-- QUANT of min is code 0 for every well-formed range whose span is finite. Derived from 40_scalar_quantizer.md R100,
40_scalar_quantizer.md R94. NOTE: R100 names no condition on the span; a span that overflows raises NonFinite by
R94: log 12. -/
def Obligations.QuantOfMinIsZero : Prop :=
  ∀ (r : ScalarRange) (s : State),
    rangeOk Numerics.reference r = true → F64.finite (fsub r.max r.min) = true →
    let o : QOut := { code := 0, fault := false, oor := false }
    exec (.quant r.min r) s = .next { s with qOut := o, results := s.results ++ [.q o] }

/-- On each of the nine protocol ranges QUANT(max) = N, DEQUANT(0) = min and DEQUANT(N) = max, exactly. Derived from
00_scope.md R7, 40_scalar_quantizer.md R97, R100, 95_test_vectors.md V-B table. -/
def Obligations.ProtocolRangesReachBothEnds : Prop :=
  ∀ r ∈ [txPos, txVel, txTrq, txKp, txKd, rxPos, rxVel, rxTrq, rxTemp],
    quantize Numerics.reference false r.max r = .ok (2 ^ r.bits.toNat - 1)
    ∧ quantize Numerics.reference true r.max r = .ok (2 ^ r.bits.toNat - 1)
    ∧ (dequantSteps Numerics.reference 0 r).y = r.min
    ∧ (dequantSteps Numerics.reference (2 ^ r.bits.toNat - 1) r).y = r.max

/-- On TX_KP and TX_KD, QUANT of DEQUANT of a code is the code, under both settings of STRICT_RANGE. Derived from
40_scalar_quantizer.md R101. -/
def Obligations.GainCodesReencodeToThemselves : Prop :=
  ∀ strict : Bool,
    (∀ q : Nat, q < 2 ^ 10 →
      quantize Numerics.reference strict (dequantSteps Numerics.reference q txKp).y txKp = .ok (q : Int))
    ∧ (∀ q : Nat, q < 2 ^ 8 →
      quantize Numerics.reference strict (dequantSteps Numerics.reference q txKd).y txKd = .ok (q : Int))

/-- In binary64 the round-trip bound span/N of the source does not hold on TX_POS and TX_VEL. Derived from
40_scalar_quantizer.md R100, 93_implementation_defined.md U18. -/
def Obligations.RoundTripBoundFailsOnPositionAndVelocity : Prop :=
  ∀ r ∈ [txPos, txVel], ∃ (x : F64) (t : Nat),
    InRange x r ∧ (∀ strict : Bool, quantize Numerics.reference strict x r = .ok (t : Int))
    ∧ F64.units r.max - F64.units r.min <
      |F64.units (dequantSteps Numerics.reference t r).y - F64.units x| * (2 ^ r.bits.toNat - 1)

/-- In binary64 the round-trip bound span/N holds for every x in range on TX_KP and TX_KD. Derived from
40_scalar_quantizer.md R100, 93_implementation_defined.md U18. -/
def Obligations.RoundTripBoundHoldsOnGains : Prop :=
  ∀ r ∈ [txKp, txKd], ∀ x : F64, InRange x r → ∃ t : Nat,
    (∀ strict : Bool, quantize Numerics.reference strict x r = .ok (t : Int))
    ∧ |F64.units (dequantSteps Numerics.reference t r).y - F64.units x| * (2 ^ r.bits.toNat - 1)
      ≤ F64.units r.max - F64.units r.min

/-- DEQUANT: q times span, divided by N, plus min, for every 32-bit code; or NonFinite. Derived from
40_scalar_quantizer.md R97, R98. NOTE: That the transaction then completes with a free dq_y, and the index of the
next free value may change, is the model's choice, log 5. -/
def Obligations.DequantRunsByTheFormula : Prop :=
  ∀ (q : BitVec 32) (r : ScalarRange) (s : State),
    rangeOk Numerics.reference r = true →
    let span := fsub r.max r.min
    let a := fmul (u2f q.toNat) span
    let b := fdiv a (u2f (2 ^ r.bits.toNat - 1))
    let y := fadd b r.min
    let finite := F64.finite span && F64.finite a && F64.finite b && F64.finite y
    (finite = true →
      let o : DqOut := { y := y, fault := false }
      exec (.dequant q r) s = .next { s with dqOut := o, results := s.results ++ [.dq o] })
    ∧ (finite = false → ∃ z k,
      exec (.dequant q r) s =
        .next { s with
          dqOut := { y := z, fault := true }, results := s.results ++ [.dq { y := z, fault := true }], free := k })

/-- DEQUANT of code 0 is min, and +0 when min is a zero. Derived from 40_scalar_quantizer.md R97, 00_scope.md R15. -/
def Obligations.DequantOfZeroIsMin : Prop :=
  ∀ (r : ScalarRange) (s : State),
    rangeOk Numerics.reference r = true → F64.finite (fsub r.max r.min) = true →
    let o : DqOut := { y := if F64.mag r.min = 0 then 0 else r.min, fault := false }
    exec (.dequant 0 r) s = .next { s with dqOut := o, results := s.results ++ [.dq o] }

/-- The byte formulas of R116 and R117 are the word slices of R53. Derived from 20_memory.md R47, R53,
41_frame_packer.md R116, R117. -/
def Obligations.RawFieldsAreWordSlices : Prop :=
  ∀ p : Payload,
    positionRaw p = p.extractLsb' 0 20
    ∧ torqueRaw p = p.extractLsb' 40 16
    ∧ faultRaw p = p.getLsbD 56
    ∧ tempRaw p = p.extractLsb' 57 7
    ∧ velocityRaw .four p = p.extractLsb' 20 20
    ∧ velocityRaw .zero p =
      (((p.extractLsb' 20 4).setWidth 20 <<< 4) ||| ((p.extractLsb' 24 16).setWidth 20 <<< 4))

/-- RX_VEL_SHIFT = 0: four low zero bits and an OR of two nibbles; 4: the raw fields determine the payload. Derived from
41_frame_packer.md R116, 70_reset_and_hazards.md R196. -/
def Obligations.VelocityExtractionByShift : Prop :=
  (∀ p : Payload,
    (velocityRaw .zero p).extractLsb' 0 4 = 0
    ∧ (velocityRaw .zero p).extractLsb' 4 4 =
      ((payloadByte p 2).extractLsb' 4 4 ||| (payloadByte p 3).extractLsb' 0 4)
    ∧ (velocityRaw .zero p).extractLsb' 8 4 = (payloadByte p 3).extractLsb' 4 4
    ∧ (velocityRaw .zero p).extractLsb' 12 8 = payloadByte p 4)
  ∧ (∃ p p' : Payload, p ≠ p' ∧ positionRaw p = positionRaw p' ∧ velocityRaw .zero p = velocityRaw .zero p'
      ∧ torqueRaw p = torqueRaw p' ∧ faultRaw p = faultRaw p' ∧ tempRaw p = tempRaw p')
  ∧ (∀ p p' : Payload, positionRaw p = positionRaw p' → velocityRaw .four p = velocityRaw .four p' →
      torqueRaw p = torqueRaw p' → faultRaw p = faultRaw p' → tempRaw p = tempRaw p' → p = p')

/-- UNPACK of eight bytes dequantizes the four word slices, copies the fault bit, and changes nothing else. Derived from
41_frame_packer.md R115, 20_memory.md R53. NOTE: That a part run alone writes its lines, delivers no record and
leaves the rest is the model's choice, log 8. -/
def Obligations.UnpackWritesTheState : Prop :=
  ∀ (p : Payload) (s : State),
    let vraw : BitVec 20 :=
      match s.config.rxVelShift with
      | .zero => ((p.extractLsb' 20 4).setWidth 20 ||| (p.extractLsb' 24 16).setWidth 20) <<< 4
      | .four => p.extractLsb' 20 20
    exec (.unpack 8 p) s =
      .next { s with
        rxOut := { s.rxOut with
          pos := (dequantSteps Numerics.reference (p.extractLsb' 0 20).toNat rxPos).y
          vel := (dequantSteps Numerics.reference vraw.toNat rxVel).y
          trq := (dequantSteps Numerics.reference (p.extractLsb' 40 16).toNat rxTrq).y
          temp := (dequantSteps Numerics.reference (p.extractLsb' 57 7).toNat rxTemp).y
          fault := p.getLsbD 56 } }

/-- UNPACK with a length other than 8 raises rx_malformed and zeroes the state lines, whatever the data. Derived from
41_frame_packer.md R119. NOTE: That a part run alone writes its lines, delivers no record and leaves the rest is the
model's choice, log 8. -/
def Obligations.WrongLengthIsMalformed : Prop :=
  ∀ (len : BitVec 4) (p : Payload) (s : State), len ≠ 8 →
    exec (.unpack len p) s =
      .next { s with
        rxOut := { s.rxOut with
          malformed := true, stateValid := false, pos := 0, vel := 0, trq := 0, temp := 0, fault := false } }

/-- The four DEQUANTs of UNPACK never raise NonFinite, and every result lies in its field range. Derived from
41_frame_packer.md R115, 40_scalar_quantizer.md R97, R98. -/
def Obligations.EveryPayloadDecodesInRange : Prop :=
  (∀ r ∈ [rxPos, rxVel, rxTrq, rxTemp], ∀ q : Nat, q ≤ 2 ^ r.bits.toNat - 1 →
    dequantFinite (dequantSteps Numerics.reference q r) = true
    ∧ InRange (dequantSteps Numerics.reference q r).y r)
  ∧ (∀ (vs : RxVelShift) (p : Payload),
    InRange (unpackState Numerics.reference vs p).pos rxPos ∧ InRange (unpackState Numerics.reference vs p).vel rxVel
    ∧ InRange (unpackState Numerics.reference vs p).trq rxTrq
    ∧ InRange (unpackState Numerics.reference vs p).temp rxTemp)

/-- Flipping the fault bit of a payload flips rx_fault and changes no other decoded field. Derived from
41_frame_packer.md R117, 70_reset_and_hazards.md R198. -/
def Obligations.FaultBitIsData : Prop :=
  ∀ (vs : RxVelShift) (p : Payload),
    unpackState Numerics.reference vs (p ^^^ 0x0100000000000000#64) =
      { unpackState Numerics.reference vs p with fault := !(unpackState Numerics.reference vs p).fault }

/-- All-zero and all-ones payloads decode to the ends of the ranges; velocity 40.0 is unreachable with RX_VEL_SHIFT = 0.
Formalises R118. -/
def Obligations.EndPayloadsDecode : Prop :=
  (∀ vs : RxVelShift, unpackState Numerics.reference vs 0 =
    { pos := 0xC044000000000000#64, vel := 0xC044000000000000#64, trq := 0xC044000000000000#64
      fault := false, temp := 0xC034000000000000#64 })
  ∧ unpackState Numerics.reference .zero 0xFFFFFFFFFFFFFFFF#64 =
    { pos := 0x4044000000000000#64, vel := 0x4043FFDA7FFDA800#64, trq := 0x4044000000000000#64
      fault := true, temp := 0x4069000000000000#64 }
  ∧ unpackState Numerics.reference .four 0xFFFFFFFFFFFFFFFF#64 =
    { pos := 0x4044000000000000#64, vel := 0x4044000000000000#64, trq := 0x4044000000000000#64
      fault := true, temp := 0x4069000000000000#64 }
  ∧ (∀ p : Payload, (unpackState Numerics.reference .zero p).vel ≠ 0x4044000000000000#64)

/-- PARSE.CONTROL delivers the unpacked state of eight bytes, or a malformed record with zero state. Formalises R147. -/
def Obligations.ControlFrameIsParsed : Prop :=
  ∀ (rx : RxIn) (s : State), rx.id.extractLsb' 5 6 = 4 →
    (rx.len = 8 →
      let st := unpackState Numerics.reference s.config.rxVelShift rx.data
      let o : RxOut :=
        { motor := (rx.id.extractLsb' 0 4).setWidth 8, opcode := 4, stateValid := true, pos := st.pos, vel := st.vel
          trq := st.trq, temp := st.temp, fault := st.fault, ack := false, unknown := false, malformed := false }
      exec (.parseControl rx) s = .next { s with rxOut := o, results := s.results ++ [.rx o] })
    ∧ (rx.len ≠ 8 →
      let o : RxOut :=
        { motor := (rx.id.extractLsb' 0 4).setWidth 8, opcode := 4, stateValid := false, pos := 0, vel := 0, trq := 0
          temp := 0, fault := false, ack := false, unknown := false, malformed := true }
      exec (.parseControl rx) s = .next { s with rxOut := o, results := s.results ++ [.rx o] })

/-- PARSE.DISABLE and PARSE.ENABLE deliver an acknowledgment; length and data are not read. Formalises R148, R149. -/
def Obligations.AcknowledgmentsAreParsed : Prop :=
  ∀ (rx : RxIn) (s : State),
    (rx.id.extractLsb' 5 6 = 1 →
      let o : RxOut :=
        { motor := (rx.id.extractLsb' 0 4).setWidth 8, opcode := 1, stateValid := false, pos := 0, vel := 0, trq := 0
          temp := 0, fault := false, ack := true, unknown := false, malformed := false }
      exec (.parseDisable rx) s = .next { s with rxOut := o, results := s.results ++ [.rx o] })
    ∧ (rx.id.extractLsb' 5 6 = 2 →
      let o : RxOut :=
        { motor := (rx.id.extractLsb' 0 4).setWidth 8, opcode := 2, stateValid := false, pos := 0, vel := 0, trq := 0
          temp := 0, fault := false, ack := true, unknown := false, malformed := false }
      exec (.parseEnable rx) s = .next { s with rxOut := o, results := s.results ++ [.rx o] })

/-- PARSE.UNKNOWN delivers rx_unknown and no state for every opcode but 1, 2 and 4; length and data are not read.
Formalises R150. -/
def Obligations.UnknownOpcodeIsParsed : Prop :=
  ∀ (rx : RxIn) (s : State),
    rx.id.extractLsb' 5 6 ≠ 1 → rx.id.extractLsb' 5 6 ≠ 2 → rx.id.extractLsb' 5 6 ≠ 4 →
    let o : RxOut :=
      { motor := (rx.id.extractLsb' 0 4).setWidth 8, opcode := rx.id.extractLsb' 5 6, stateValid := false, pos := 0
        vel := 0, trq := 0, temp := 0, fault := false, ack := false, unknown := true, malformed := false }
    exec (.parseUnknown rx) s = .next { s with rxOut := o, results := s.results ++ [.rx o] }

/-- Every received frame parses, and exactly one of valid, ack, unknown and malformed is 1. Derived from
60_exceptions.md R167, 30_encoding.md R70. -/
def Obligations.EveryFrameParsesWithExactlyOneFlag : Prop :=
  ∀ (rx : RxIn) (s : State), ∃ o : RxOut,
    exec (selectParse rx) s = .next { s with rxOut := o, results := s.results ++ [.rx o] }
    ∧ o.stateValid.toNat + o.ack.toNat + o.unknown.toNat + o.malformed.toNat = 1

/-- Every step keeps: delivered records are lawful, and each port shows the record it delivered last. Derived from
60_exceptions.md R167, 10_state.md R23, R29, R32, 30_encoding.md R65. NOTE: That the lines hold the last record, and
what they show at reset, is the model's choice, log 3; that the records delivered stand in a list of the state is
log 2. -/
def Obligations.StepKeepsTheInvariant : Prop :=
  ∀ s t : State, s.Inv → step s = .next t → t.Inv

/-- The state after reset meets the invariant. Derived from 10_state.md R33, 70_reset_and_hazards.md R190. NOTE: The
reset lines it compares with are the model's choice, log 3. -/
def Obligations.ResetMeetsTheInvariant : Prop :=
  State.reset.Inv

/-- After reset tx_ok, rx_state_valid and rx_ack are 0, nothing was delivered, and the parameters are the defaults.
Derived from 10_state.md R33, 00_scope.md R9, 92_eei_decisions.md D20. NOTE: The other output lines at reset are the
model's choice, log 3, and are not stated here. -/
def Obligations.ResetPresentsNoResult : Prop :=
  State.reset.txOut.ok = false ∧ State.reset.rxOut.stateValid = false ∧ State.reset.rxOut.ack = false
  ∧ State.reset.results = [] ∧ State.reset.pending = []
  ∧ State.reset.config.rxVelShift = .zero ∧ State.reset.config.strictRange = false

/-- No instruction and no step changes the build-time parameters. Derived from 10_state.md R24, 00_scope.md R9. NOTE:
That they stand in the state as constants is the model's choice, log 4. -/
def Obligations.NothingIsConfiguredAtRunTime : Prop :=
  (∀ (i : Instr) (s t : State), exec i s = .next t → t.config = s.config)
  ∧ (∀ s t : State, step s = .next t → t.config = s.config)

/-- An instruction changes output lines of its own port only, delivers at most one record, and presents nothing. Derived
from 10_state.md R32, 20_memory.md R49. NOTE: Lines held between records are the model's choice, log 3; the list of
results is log 2; the index of the next free value is log 5; parts that run alone and deliver no record are log 8. -/
def Obligations.PortsShareNothing : Prop :=
  ∀ (i : Instr) (s t : State), exec i s = .next t →
    (portOf i ≠ .tx → t.txOut = s.txOut) ∧ (portOf i ≠ .rx → t.rxOut = s.rxOut)
    ∧ (portOf i ≠ .q → t.qOut = s.qOut) ∧ (portOf i ≠ .dq → t.dqOut = s.dqOut)
    ∧ t.pending = s.pending ∧ (t.results = s.results ∨ ∃ o, t.results = s.results ++ [o])
    ∧ (portOf i ≠ .q → portOf i ≠ .dq → t.free = s.free)

/-- What a transaction answers does not depend on anything that happened before it. Derived from 00_scope.md R6,
10_state.md R20, 60_exceptions.md R171. NOTE: The lists of requests and results are the model's own, log 2. -/
def Obligations.OutputsDependOnInputsOnly : Prop :=
  ∀ (s s' : State) (r : Request) (rest rest' : List Request),
    s.pending = r :: rest → s'.pending = r :: rest' → s.config = s'.config → accepted r = true →
    ∃ (t t' : State) (o o' : Output),
      step s = .next t ∧ step s' = .next t' ∧ t.pending = rest ∧ t'.pending = rest'
      ∧ t.results = s.results ++ [o] ∧ t'.results = s'.results ++ [o'] ∧ o.view = o'.view

/-- A run completes every presented transaction, one record each, and each record is what the transaction answers alone.
Derived from 70_reset_and_hazards.md R202, 20_memory.md R49, 10_state.md R32. NOTE: The lists of requests and
results are the model's own, log 2. -/
def Obligations.RunAnswersEachTransactionAsAlone : Prop :=
  ∀ s : State, (∀ r ∈ s.pending, accepted r = true) →
    ∃ (t : State) (outs : List Output),
      Host.Core.run Sys2Proof.core s.pending.length s = .next t
      ∧ t.pending = [] ∧ t.config = s.config ∧ t.results = s.results ++ outs
      ∧ outs.map (fun o => some o.view) = s.pending.map (alone s.config)

/-- Presenting the same transactions in another order gives the same (input, output) pairs. Derived from
95_test_vectors.md Program P5, 20_memory.md R49, 70_reset_and_hazards.md R202. NOTE: The lists of requests and
results are the model's own, log 2. -/
def Obligations.PermutedRunsAnswerAlike : Prop :=
  ∀ s s' : State, s.pending.Perm s'.pending → s.config = s'.config → (∀ r ∈ s.pending, accepted r = true) →
    ∃ t t' : State,
      Host.Core.run Sys2Proof.core s.pending.length s = .next t
      ∧ Host.Core.run Sys2Proof.core s'.pending.length s' = .next t'
      ∧ (s.pending.zip ((t.results.drop s.results.length).map Output.view)).Perm
        (s'.pending.zip ((t'.results.drop s'.results.length).map Output.view))

/-- What the host sends after a BUILD and presents after a receive. Derived from 20_memory.md R43, R52,
70_reset_and_hazards.md R199. NOTE: The list of presented requests and their byte form are the model's own, log 1
and log 2. -/
def Obligations.TransportBoundary : Prop :=
  (∀ o : TxOut, o.ok = true →
    sendCall o = some { frameId := o.id.setWidth 32, dlc := o.dlc.setWidth 8, payload := o.data })
  ∧ (∀ o : TxOut, o.ok = false → sendCall o = none)
  ∧ (∀ c : SendCall, c.dlc.toNat ≤ 8 →
      c.wireBytes.length = c.dlc.toNat
      ∧ ∀ k, k < c.dlc.toNat → c.wireBytes[k]? = some (payloadByte c.payload k))
  ∧ (∀ (id : BitVec 32) (bytes : List Byte) (s : State),
      State.presentReceived (some (id, bytes)) s =
        { s with pending := s.pending ++ [encodeRx (receivedFrame id bytes)] })
  ∧ (∀ (id : BitVec 32) (bytes : List Byte),
      (receivedFrame id bytes).id = id ∧ (receivedFrame id bytes).len.toNat = min bytes.length 15
      ∧ ∀ k, k < 8 → (hk : k < bytes.length) → payloadByte (receivedFrame id bytes).data k = bytes[k])
  ∧ (∀ s : State, State.presentReceived none s = s)

/-- MemRead and MemWrite of R12 read and write exactly the bytes they name, little-endian. Derived from 00_scope.md R12,
20_memory.md R43. -/
def Obligations.PayloadReadsAndWrites : Prop :=
  ∀ (p : Payload) (addr n v : Nat), addr + n ≤ 8 →
    memRead p addr n = some (leNat (((payloadBytes p).drop addr).take n))
    ∧ ∃ w : Payload, memWrite p addr n v = some w
      ∧ ∀ k, k < 8 → payloadByte w k =
        if addr ≤ k ∧ k < addr + n then BitVec.ofNat 8 (v / 2 ^ (8 * (k - addr))) else payloadByte p k

/-- fadd, fsub, fmul and fdiv give the finite binary64 value nearest to the exact result, ties to the even fraction.
Derived from 00_scope.md R14, R15. -/
def Obligations.OperationsRoundToNearestEven : Prop :=
  let nearest := fun (r : F64) (p : Int) (q : Int) =>
    F64.finite r = true → ∀ c : F64, F64.finite c = true →
      |F64.units r * q - p| ≤ |F64.units c * q - p|
      ∧ (|F64.units r * q - p| = |F64.units c * q - p| → F64.units c ≠ F64.units r → F64.frac r % 2 = 0)
  ∀ a b : F64, F64.finite a = true → F64.finite b = true →
    nearest (fadd a b) (F64.units a + F64.units b) 1
    ∧ nearest (fsub a b) (F64.units a - F64.units b) 1
    ∧ nearest (fmul a b) (F64.units a * F64.units b) F64.one
    ∧ (F64.units b ≠ 0 → nearest (fdiv a b) (F64.units a * F64.one * (F64.units b).sign) |F64.units b|)

/-- An operation on finite operands is non-finite exactly when the exact result reaches 2^1024 - 2^970. Derived from
00_scope.md R14, R15. -/
def Obligations.ResultsOverflowExactlyAtTheThreshold : Prop :=
  (∀ a b : F64, F64.finite a = true → F64.finite b = true →
    (F64.finite (fadd a b) = false ↔ (2 ^ 2098 - 2 ^ 2044 : Int) ≤ |F64.units a + F64.units b|)
    ∧ (F64.finite (fsub a b) = false ↔ (2 ^ 2098 - 2 ^ 2044 : Int) ≤ |F64.units a - F64.units b|)
    ∧ (F64.finite (fmul a b) = false ↔ (2 ^ 2098 - 2 ^ 2044 : Int) * F64.one ≤ |F64.units a * F64.units b|)
    ∧ (F64.units b ≠ 0 →
      (F64.finite (fdiv a b) = false ↔ (2 ^ 2098 - 2 ^ 2044 : Int) * |F64.units b| ≤ |F64.units a| * F64.one))
    ∧ (F64.units b = 0 → F64.finite (fdiv a b) = false))
  ∧ (∀ a b : F64, F64.finite a = false ∨ F64.finite b = false →
    F64.finite (fadd a b) = false ∧ F64.finite (fsub a b) = false ∧ F64.finite (fmul a b) = false
    ∧ F64.finite (fdiv a b) = false)

/-- A finite pattern is the pattern of its sign and magnitude; only the two zeros share a value. Derived from
00_scope.md R13. -/
def Obligations.PatternsAreTheirValues : Prop :=
  (∀ a : F64, F64.finite a = true → packMag (F64.sign a) (F64.mag a) = a)
  ∧ (∀ a b : F64, F64.finite a = true → F64.finite b = true → F64.units a = F64.units b →
      a = b ∨ (F64.mag a = 0 ∧ F64.mag b = 0))

/-- An exact zero sum is +0 unless both addends are -0; a zero product or quotient has the exclusive-or of the signs.
Derived from 00_scope.md R15. -/
def Obligations.ExactZerosHaveTheirSigns : Prop :=
  ∀ a b : F64, F64.finite a = true → F64.finite b = true →
    let zero := fun (neg : Bool) => if neg then 0x8000000000000000#64 else 0x0000000000000000#64
    (F64.units a + F64.units b = 0 → fadd a b = zero (decide (a = zero true ∧ b = zero true)))
    ∧ (F64.units a - F64.units b = 0 → fsub a b = zero (decide (a = zero true ∧ b = zero false)))
    ∧ (F64.units a = 0 ∨ F64.units b = 0 → fmul a b = zero (F64.sign a != F64.sign b))
    ∧ (F64.units a = 0 → F64.units b ≠ 0 → fdiv a b = zero (F64.sign a != F64.sign b))
end

