-- ==== Sys2Proof/Laws/Codec.lean ====
section
/-! SUPPORT. What each shared operation of the codec can do, said once: QUANT, PACK, the TX record, UNPACK, the RX
record. -/

namespace Sys2Proof.Machine

/-! ### QUANT -/

/-- QUANT answers the truncated quotient, or one of two kinds, each under its own condition (R91, R94, R99, R169). -/
theorem quantize_cases (num : Numerics) (strict : Bool) (x : F64) (r : ScalarRange) :
    (quantFinite x (quantSteps num x r) = true ∧ (strict && outside num x r) = false
      ∧ quantize num strict x r = .ok (num.f2i (quantSteps num x r).v))
    ∨ (quantFinite x (quantSteps num x r) = true ∧ (strict && outside num x r) = true
      ∧ quantize num strict x r = .error .outOfRange)
    ∨ (quantFinite x (quantSteps num x r) = false ∧ quantize num strict x r = .error .nonFinite) := by
  unfold quantize
  cases hf : quantFinite x (quantSteps num x r)
  · exact .inr (.inr ⟨rfl, by simp [hf]⟩)
  · cases ho : (strict && outside num x r)
    · exact .inl ⟨rfl, rfl, by simp [hf]⟩
    · exact .inr (.inl ⟨rfl, rfl, by simp [hf]⟩)

/-- QUANT never reports a missing command. -/
theorem quantize_ne_missing (num : Numerics) (strict : Bool) (x : F64) (r : ScalarRange) :
    quantize num strict x r ≠ .error .missingCommand := by
  rcases quantize_cases num strict x r with ⟨_, _, h⟩ | ⟨_, _, h⟩ | ⟨_, h⟩ <;> rw [h] <;> simp

/-- Without the strict variant QUANT never reports OutOfRangeInput (R93). -/
theorem quantize_lenient (num : Numerics) (x : F64) (r : ScalarRange) :
    quantize num false x r ≠ .error .outOfRange := by
  rcases quantize_cases num false x r with ⟨_, _, h⟩ | ⟨_, h', _⟩ | ⟨_, h⟩
  · rw [h]; simp
  · simp at h'
  · rw [h]; simp

/-- A field's code, or the kind its QUANT raised. -/
theorem quantCode_eq (num : Numerics) (strict : Bool) (x : F64) (r : ScalarRange) :
    quantCode num strict x r = (quantize num strict x r).map codeOf := by
  unfold quantCode
  cases quantize num strict x r <;> rfl

/-! ### PACK -/

/-- PACK answers a payload, or NonFinite, or OutOfRangeInput; never a missing command (R121). -/
theorem packPayload_cases (num : Numerics) (strict : Bool) (c : MotorCommand) :
    (∃ p v t a d : BitVec 32,
      quantCode num strict c.pos txPos = .ok p ∧ quantCode num strict c.vel txVel = .ok v
      ∧ quantCode num strict c.trq txTrq = .ok t ∧ quantCode num strict c.kp txKp = .ok a
      ∧ quantCode num strict c.kd txKd = .ok d
      ∧ packPayload num strict c = .ok (sendLayout { pos := p, vel := v, trq := t, kp := a, kd := d }))
    ∨ packPayload num strict c = .error .nonFinite ∨ packPayload num strict c = .error .outOfRange := by
  unfold packPayload
  dsimp only
  split
  · rename_i hp hv ht ha hd
    exact .inl ⟨_, _, _, _, _, hp, hv, ht, ha, hd, rfl⟩
  · split
    · exact .inr (.inl rfl)
    · exact .inr (.inr rfl)

/-! ### The TX record -/

@[simp] theorem fail_id (k : ErrKind) (o : TxOut) : (o.fail k).id = o.id := rfl
@[simp] theorem fail_dlc (k : ErrKind) (o : TxOut) : (o.fail k).dlc = 0 := rfl
@[simp] theorem fail_data (k : ErrKind) (o : TxOut) : (o.fail k).data = 0 := rfl
@[simp] theorem fail_ok (k : ErrKind) (o : TxOut) : (o.fail k).ok = false := rfl
@[simp] theorem fail_err (k : ErrKind) (o : TxOut) : (o.fail k).err = k.code := rfl
@[simp] theorem fail_unknown (k : ErrKind) (o : TxOut) : (o.fail k).unknown = false := rfl

/-- No error kind has the code of success (R167). -/
theorem code_ne_zero (k : ErrKind) : k.code ≠ 0 := by cases k <;> decide

/-- The opcode bits of a joined identifier are the opcode (R130). -/
theorem joinId_opcode (op : BitVec 6) (m : BitVec 5) : (joinId op m).extractLsb' 5 6 = op := by
  ext i hi
  simp only [joinId, BitVec.getElem_extractLsb', BitVec.getLsbD_or, BitVec.getLsbD_shiftLeft,
    BitVec.getLsbD_setWidth]
  have h2 : 5 + i < 11 := by omega
  have h3 : ¬ 5 + i < 5 := by omega
  have h4 : 5 + i - 5 < 11 := by omega
  simp [h2, BitVec.getLsbD_eq_getElem hi]
  omega

/-- BUILD.CONTROL answers the failed record of one kind, or eight bytes of PACK (R143, R145, R169). -/
theorem controlRecord_cases (num : Numerics) (strict : Bool) (m : BitVec 5) (c : CommandIn) :
    (c.valid = false ∧ controlRecord num strict m c = (txDefaults 4 m).fail .missingCommand)
    ∨ (c.valid = true ∧ ∃ p, packPayload num strict c.cmd = .ok p
      ∧ controlRecord num strict m c = { txDefaults 4 m with dlc := 8, data := p })
    ∨ (c.valid = true ∧ ∃ k, packPayload num strict c.cmd = .error k
      ∧ controlRecord num strict m c = (txDefaults 4 m).fail k) := by
  unfold controlRecord
  cases hv : c.valid
  · exact .inl ⟨rfl, by simp⟩
  · cases hp : packPayload num strict c.cmd with
    | ok p => exact .inr (.inl ⟨rfl, p, rfl, by simp⟩)
    | error k => exact .inr (.inr ⟨rfl, k, rfl, by simp⟩)

/-! ### UNPACK and the RX record -/

/-- UNPACK of eight bytes writes the five state fields and nothing else (R115). -/
theorem unpack_eight (num : Numerics) (vs : RxVelShift) (p : Payload) (o : RxOut) :
    o.unpack num vs 8 p =
      { o with
        pos := (unpackState num vs p).pos, vel := (unpackState num vs p).vel, trq := (unpackState num vs p).trq
        fault := (unpackState num vs p).fault, temp := (unpackState num vs p).temp } := by
  unfold RxOut.unpack
  rw [if_pos rfl]

/-- UNPACK of any other length is MalformedPayload, and no byte is read (R119). -/
theorem unpack_other (num : Numerics) (vs : RxVelShift) (len : BitVec 4) (p : Payload) (o : RxOut) (h : len ≠ 8) :
    o.unpack num vs len p = o.malform := by
  unfold RxOut.unpack
  rw [if_neg h]

/-- The list of payload bytes holds `P[k]` at `k` (R40, R43). -/
theorem payloadBytes_getElem? (p : Payload) (k : Nat) (h : k < 8) :
    (payloadBytes p)[k]? = some (payloadByte p k) := by
  simp [payloadBytes, h]

/-- PARSE.CONTROL of eight bytes is a valid state (R147). -/
theorem parsedRecord_eight (num : Numerics) (vs : RxVelShift) (rx : RxIn) (h : rx.len = 8) :
    parsedRecord num vs rx =
      { rxDefaults rx.id with
        stateValid := true
        pos := (unpackState num vs rx.data).pos, vel := (unpackState num vs rx.data).vel
        trq := (unpackState num vs rx.data).trq, fault := (unpackState num vs rx.data).fault
        temp := (unpackState num vs rx.data).temp } := by
  unfold parsedRecord
  rw [h, unpack_eight]
  rfl

/-- PARSE.CONTROL of any other length is malformed and shows no state (R119, R147). -/
theorem parsedRecord_other (num : Numerics) (vs : RxVelShift) (rx : RxIn) (h : rx.len ≠ 8) :
    parsedRecord num vs rx = { rxDefaults rx.id with malformed := true } := by
  unfold parsedRecord
  rw [unpack_other num vs rx.len rx.data _ h]
  rfl

end Sys2Proof.Machine
end

