-- ==== Sys2Proof/Laws/Decode.lean ====
section
/-! SUPPORT. Bytes and fields: what the little-endian helpers of Decode.lean do, and that the mask of R61 is the slice of
R70. -/

namespace Sys2Proof

@[simp] theorem leBytes_length (n v : Nat) : (leBytes n v).length = n := by
  induction n generalizing v with
  | zero => rfl
  | succ n ih => simp [leBytes, ih]

/-- Writing `n` bytes and reading them back keeps the low `8n` bits. -/
theorem leNat_leBytes (n v : Nat) : leNat (leBytes n v) = v % 256 ^ n := by
  induction n generalizing v with
  | zero => simp [leBytes, leNat, Nat.mod_one]
  | succ n ih =>
    have h : (BitVec.ofNat 8 v).toNat = v % 256 := rfl
    simp only [leBytes, leNat, ih, h]
    rw [Nat.pow_succ', Nat.mod_mul]

/-- Reading bytes and writing them back gives the bytes. -/
theorem leBytes_leNat (bs : List Byte) : leBytes bs.length (leNat bs) = bs := by
  induction bs with
  | nil => rfl
  | cons b bs ih =>
    have hb := b.isLt
    have h1 : BitVec.ofNat 8 (b.toNat + 256 * leNat bs) = b := by
      apply BitVec.eq_of_toNat_eq
      simp only [BitVec.toNat_ofNat]
      omega
    have h2 : (b.toNat + 256 * leNat bs) / 256 = leNat bs := by omega
    simp only [leNat, List.length_cons, leBytes, h1, h2, ih]

/-- A field that lies behind a prefix of known length. -/
theorem fieldAt_append_right (xs ys : List Byte) (off n : Nat) (h : xs.length ≤ off) :
    fieldAt (xs ++ ys) off n = fieldAt ys (off - xs.length) n := by
  simp only [fieldAt, List.drop_append, List.drop_of_length_le h, List.nil_append]

/-- A field written at the front of a record is read back. -/
theorem fieldAt_leBytes (n v : Nat) (ys : List Byte) (h : v < 256 ^ n) :
    fieldAt (leBytes n v ++ ys) 0 n = v := by
  have ht : (leBytes n v ++ ys).take n = leBytes n v := List.take_left' (leBytes_length n v)
  simp only [fieldAt, List.drop_zero, ht, leNat_leBytes, Nat.mod_eq_of_lt h]

/-- An f64 field written at the front of a record is read back. -/
theorem realAt_realBytes (x : F64) (ys : List Byte) : realAt (realBytes x ++ ys) 0 = x := by
  have h : x.toNat < 256 ^ 8 := x.isLt
  simp [realAt, realBytes, fieldAt_leBytes 8 x.toNat ys h]

@[simp] theorem realBytes_length (x : F64) : (realBytes x).length = 8 := by simp [realBytes]

@[simp] theorem rangeBytes_length (r : ScalarRange) : (rangeBytes r).length = 17 := by simp [rangeBytes]

/-- The shift and mask of R61 read the slice of R70. -/
theorem rxOpcode_eq_opcodeField (id : BitVec 32) : rxOpcode id = opcodeField id := by
  apply BitVec.eq_of_toNat_eq
  have h : (0x3F : Nat) = 2 ^ 6 - 1 := rfl
  simp only [rxOpcode, opcodeField, BitVec.toNat_setWidth, BitVec.toNat_and, BitVec.toNat_ushiftRight,
    BitVec.extractLsb'_toNat, BitVec.toNat_ofNat]
  rw [show (63 % 2 ^ 32 : Nat) = 2 ^ 6 - 1 from rfl, Nat.and_two_pow_sub_one_eq_mod, Nat.mod_mod]

/-- What selection answers on the TX port, by opcode (R140). -/
theorem selectBuild_cases (op : BitVec 6) (m : BitVec 5) (c : CommandIn) :
    (op = 1 ∧ selectBuild op m c = .buildDisable m c) ∨ (op = 2 ∧ selectBuild op m c = .buildEnable m c)
    ∨ (op = 4 ∧ selectBuild op m c = .buildControl m c)
    ∨ (op ≠ 1 ∧ op ≠ 2 ∧ op ≠ 4 ∧ selectBuild op m c = .buildUnknown op m c) := by
  unfold selectBuild
  split
  · exact .inl ⟨‹_›, rfl⟩
  · split
    · exact .inr (.inl ⟨‹_›, rfl⟩)
    · split
      · exact .inr (.inr (.inl ⟨‹_›, rfl⟩))
      · exact .inr (.inr (.inr ⟨‹_›, ‹_›, ‹_›, rfl⟩))

/-- What selection answers on the RX port, by the opcode of the identifier (R146). -/
theorem selectParse_cases (rx : RxIn) :
    (rxOpcode rx.id = 1 ∧ selectParse rx = .parseDisable rx) ∨ (rxOpcode rx.id = 2 ∧ selectParse rx = .parseEnable rx)
    ∨ (rxOpcode rx.id = 4 ∧ selectParse rx = .parseControl rx)
    ∨ (rxOpcode rx.id ≠ 1 ∧ rxOpcode rx.id ≠ 2 ∧ rxOpcode rx.id ≠ 4 ∧ selectParse rx = .parseUnknown rx) := by
  unfold selectParse
  split
  · exact .inl ⟨‹_›, rfl⟩
  · split
    · exact .inr (.inl ⟨‹_›, rfl⟩)
    · split
      · exact .inr (.inr (.inl ⟨‹_›, rfl⟩))
      · exact .inr (.inr (.inr ⟨‹_›, ‹_›, ‹_›, rfl⟩))

/-- Everything a successful decode can answer: the operation its port selects, of a record of the right length. -/
theorem decode_ok_cases (r : Request) (i : Instr) (h : decode r = .ok i) :
    r.bytes.length = recordLength r.port ∧
    ((r.port = .tx ∧ ∃ op m c, i = selectBuild op m c) ∨ (r.port = .rx ∧ ∃ rx, i = selectParse rx)
    ∨ (r.port = .q ∧ ∃ x rg, i = .quant x rg) ∨ (r.port = .dq ∧ ∃ q rg, i = .dequant q rg)) := by
  unfold decode at h
  split at h
  · refine ⟨‹_›, ?_⟩
    split at h
    · rename_i hp
      simp only [decodeTx] at h
      split at h
      · simp at h
      · split at h
        · simp at h
        · injection h with h
          exact .inl ⟨hp, _, _, _, h.symm⟩
    · rename_i hp
      simp only [decodeRx] at h
      split at h
      · simp at h
      · injection h with h
        exact .inr (.inl ⟨hp, _, h.symm⟩)
    · rename_i hp
      simp only [decodeQ] at h
      split at h
      · simp at h
      · injection h with h
        exact .inr (.inr (.inl ⟨hp, _, _, h.symm⟩))
    · rename_i hp
      simp only [decodeDq] at h
      split at h
      · simp at h
      · injection h with h
        exact .inr (.inr (.inr ⟨hp, _, _, h.symm⟩))
  · simp at h

end Sys2Proof
end

