-- ==== Sys2Proof/Laws/State.lean ====
section
/-! SUPPORT. One lemma per field per update of the state, so that no proof unfolds a record update. -/

namespace Sys2Proof.Machine

variable (s : State)

/-! ### present -/

@[simp] theorem present_config (r : Request) : (State.present r s).config = s.config := rfl
@[simp] theorem present_pending (r : Request) : (State.present r s).pending = s.pending ++ [r] := rfl
@[simp] theorem present_results (r : Request) : (State.present r s).results = s.results := rfl
@[simp] theorem present_txOut (r : Request) : (State.present r s).txOut = s.txOut := rfl
@[simp] theorem present_rxOut (r : Request) : (State.present r s).rxOut = s.rxOut := rfl
@[simp] theorem present_qOut (r : Request) : (State.present r s).qOut = s.qOut := rfl
@[simp] theorem present_dqOut (r : Request) : (State.present r s).dqOut = s.dqOut := rfl
@[simp] theorem present_free (r : Request) : (State.present r s).free = s.free := rfl

/-! ### take -/

@[simp] theorem take_config (rest : List Request) : (State.take rest s).config = s.config := rfl
@[simp] theorem take_pending (rest : List Request) : (State.take rest s).pending = rest := rfl
@[simp] theorem take_results (rest : List Request) : (State.take rest s).results = s.results := rfl
@[simp] theorem take_txOut (rest : List Request) : (State.take rest s).txOut = s.txOut := rfl
@[simp] theorem take_rxOut (rest : List Request) : (State.take rest s).rxOut = s.rxOut := rfl
@[simp] theorem take_qOut (rest : List Request) : (State.take rest s).qOut = s.qOut := rfl
@[simp] theorem take_dqOut (rest : List Request) : (State.take rest s).dqOut = s.dqOut := rfl
@[simp] theorem take_free (rest : List Request) : (State.take rest s).free = s.free := rfl

/-! ### emitTx -/

@[simp] theorem emitTx_config (o : TxOut) : (State.emitTx o s).config = s.config := rfl
@[simp] theorem emitTx_pending (o : TxOut) : (State.emitTx o s).pending = s.pending := rfl
@[simp] theorem emitTx_results (o : TxOut) : (State.emitTx o s).results = s.results ++ [.tx o] := rfl
@[simp] theorem emitTx_txOut (o : TxOut) : (State.emitTx o s).txOut = o := rfl
@[simp] theorem emitTx_rxOut (o : TxOut) : (State.emitTx o s).rxOut = s.rxOut := rfl
@[simp] theorem emitTx_qOut (o : TxOut) : (State.emitTx o s).qOut = s.qOut := rfl
@[simp] theorem emitTx_dqOut (o : TxOut) : (State.emitTx o s).dqOut = s.dqOut := rfl
@[simp] theorem emitTx_free (o : TxOut) : (State.emitTx o s).free = s.free := rfl

/-! ### emitRx -/

@[simp] theorem emitRx_config (o : RxOut) : (State.emitRx o s).config = s.config := rfl
@[simp] theorem emitRx_pending (o : RxOut) : (State.emitRx o s).pending = s.pending := rfl
@[simp] theorem emitRx_results (o : RxOut) : (State.emitRx o s).results = s.results ++ [.rx o] := rfl
@[simp] theorem emitRx_txOut (o : RxOut) : (State.emitRx o s).txOut = s.txOut := rfl
@[simp] theorem emitRx_rxOut (o : RxOut) : (State.emitRx o s).rxOut = o := rfl
@[simp] theorem emitRx_qOut (o : RxOut) : (State.emitRx o s).qOut = s.qOut := rfl
@[simp] theorem emitRx_dqOut (o : RxOut) : (State.emitRx o s).dqOut = s.dqOut := rfl
@[simp] theorem emitRx_free (o : RxOut) : (State.emitRx o s).free = s.free := rfl

/-! ### emitQ -/

@[simp] theorem emitQ_config (o : QOut) : (State.emitQ o s).config = s.config := rfl
@[simp] theorem emitQ_pending (o : QOut) : (State.emitQ o s).pending = s.pending := rfl
@[simp] theorem emitQ_results (o : QOut) : (State.emitQ o s).results = s.results ++ [.q o] := rfl
@[simp] theorem emitQ_txOut (o : QOut) : (State.emitQ o s).txOut = s.txOut := rfl
@[simp] theorem emitQ_rxOut (o : QOut) : (State.emitQ o s).rxOut = s.rxOut := rfl
@[simp] theorem emitQ_qOut (o : QOut) : (State.emitQ o s).qOut = o := rfl
@[simp] theorem emitQ_dqOut (o : QOut) : (State.emitQ o s).dqOut = s.dqOut := rfl
@[simp] theorem emitQ_free (o : QOut) : (State.emitQ o s).free = s.free := rfl

/-! ### emitDq -/

@[simp] theorem emitDq_config (o : DqOut) : (State.emitDq o s).config = s.config := rfl
@[simp] theorem emitDq_pending (o : DqOut) : (State.emitDq o s).pending = s.pending := rfl
@[simp] theorem emitDq_results (o : DqOut) : (State.emitDq o s).results = s.results ++ [.dq o] := rfl
@[simp] theorem emitDq_txOut (o : DqOut) : (State.emitDq o s).txOut = s.txOut := rfl
@[simp] theorem emitDq_rxOut (o : DqOut) : (State.emitDq o s).rxOut = s.rxOut := rfl
@[simp] theorem emitDq_qOut (o : DqOut) : (State.emitDq o s).qOut = s.qOut := rfl
@[simp] theorem emitDq_dqOut (o : DqOut) : (State.emitDq o s).dqOut = o := rfl
@[simp] theorem emitDq_free (o : DqOut) : (State.emitDq o s).free = s.free := rfl

/-! ### draw -/

@[simp] theorem draw_config : (State.draw s).config = s.config := rfl
@[simp] theorem draw_pending : (State.draw s).pending = s.pending := rfl
@[simp] theorem draw_results : (State.draw s).results = s.results := rfl
@[simp] theorem draw_txOut : (State.draw s).txOut = s.txOut := rfl
@[simp] theorem draw_rxOut : (State.draw s).rxOut = s.rxOut := rfl
@[simp] theorem draw_qOut : (State.draw s).qOut = s.qOut := rfl
@[simp] theorem draw_dqOut : (State.draw s).dqOut = s.dqOut := rfl
@[simp] theorem draw_free : (State.draw s).free = s.free + 1 := rfl

/-! ### setTx -/

@[simp] theorem setTx_config (o : TxOut) : (State.setTx o s).config = s.config := rfl
@[simp] theorem setTx_pending (o : TxOut) : (State.setTx o s).pending = s.pending := rfl
@[simp] theorem setTx_results (o : TxOut) : (State.setTx o s).results = s.results := rfl
@[simp] theorem setTx_txOut (o : TxOut) : (State.setTx o s).txOut = o := rfl
@[simp] theorem setTx_rxOut (o : TxOut) : (State.setTx o s).rxOut = s.rxOut := rfl
@[simp] theorem setTx_qOut (o : TxOut) : (State.setTx o s).qOut = s.qOut := rfl
@[simp] theorem setTx_dqOut (o : TxOut) : (State.setTx o s).dqOut = s.dqOut := rfl
@[simp] theorem setTx_free (o : TxOut) : (State.setTx o s).free = s.free := rfl

/-! ### setRx -/

@[simp] theorem setRx_config (o : RxOut) : (State.setRx o s).config = s.config := rfl
@[simp] theorem setRx_pending (o : RxOut) : (State.setRx o s).pending = s.pending := rfl
@[simp] theorem setRx_results (o : RxOut) : (State.setRx o s).results = s.results := rfl
@[simp] theorem setRx_txOut (o : RxOut) : (State.setRx o s).txOut = s.txOut := rfl
@[simp] theorem setRx_rxOut (o : RxOut) : (State.setRx o s).rxOut = o := rfl
@[simp] theorem setRx_qOut (o : RxOut) : (State.setRx o s).qOut = s.qOut := rfl
@[simp] theorem setRx_dqOut (o : RxOut) : (State.setRx o s).dqOut = s.dqOut := rfl
@[simp] theorem setRx_free (o : RxOut) : (State.setRx o s).free = s.free := rfl

/-! ### withFetchWord -/

@[simp] theorem withFetchWord_config (nbits w : Nat) : (State.withFetchWord s nbits w).config = s.config := rfl
@[simp] theorem withFetchWord_pending (nbits w : Nat) : (State.withFetchWord s nbits w).pending = tableRequest nbits w :: s.pending := rfl
@[simp] theorem withFetchWord_results (nbits w : Nat) : (State.withFetchWord s nbits w).results = s.results := rfl
@[simp] theorem withFetchWord_txOut (nbits w : Nat) : (State.withFetchWord s nbits w).txOut = s.txOut := rfl
@[simp] theorem withFetchWord_rxOut (nbits w : Nat) : (State.withFetchWord s nbits w).rxOut = s.rxOut := rfl
@[simp] theorem withFetchWord_qOut (nbits w : Nat) : (State.withFetchWord s nbits w).qOut = s.qOut := rfl
@[simp] theorem withFetchWord_dqOut (nbits w : Nat) : (State.withFetchWord s nbits w).dqOut = s.dqOut := rfl
@[simp] theorem withFetchWord_free (nbits w : Nat) : (State.withFetchWord s nbits w).free = s.free := rfl

end Sys2Proof.Machine
end

