-- ==== Sys2Proof/Laws/Exec.lean ====
section
/-! SUPPORT. What exec and step can do, said once. -/

namespace Sys2Proof.Machine

/-- Everything an instruction that reaches a next state does to the state: it delivers one record on its port, drawing
a free value where the record has an open field, or (a part of BUILD or PARSE run alone) it writes lines of its port. -/
theorem exec_next_cases (i : Instr) (s t : State) (h : exec i s = .next t) :
    (∃ o, portOf i = .tx ∧ (encode i).isSome ∧ t = s.emitTx o)
    ∨ (∃ o, portOf i = .rx ∧ (encode i).isSome ∧ t = s.emitRx o)
    ∨ (∃ o, portOf i = .q ∧ (encode i).isSome ∧ (t = s.emitQ o ∨ t = (s.emitQ o).draw))
    ∨ (∃ o, portOf i = .dq ∧ (encode i).isSome ∧ (t = s.emitDq o ∨ t = (s.emitDq o).draw))
    ∨ (∃ o, portOf i = .tx ∧ encode i = none ∧ t = s.setTx o)
    ∨ (∃ o, portOf i = .rx ∧ encode i = none ∧ t = s.setRx o) := by
  cases i with
  | quant x r =>
    simp only [exec, execQuant] at h
    split at h
    · split at h <;> injection h with h
      · exact .inr (.inr (.inl ⟨_, rfl, rfl, .inl h.symm⟩))
      · exact .inr (.inr (.inl ⟨_, rfl, rfl, .inr h.symm⟩))
    · cases h
  | dequant q r =>
    simp only [exec, execDequant] at h
    split at h
    · split at h <;> injection h with h
      · exact .inr (.inr (.inr (.inl ⟨_, rfl, rfl, .inl h.symm⟩)))
      · exact .inr (.inr (.inr (.inl ⟨_, rfl, rfl, .inr h.symm⟩)))
    · cases h
  | pack c =>
    simp only [exec, execPack] at h
    split at h <;> injection h with h <;> exact .inr (.inr (.inr (.inr (.inl ⟨_, rfl, rfl, h.symm⟩))))
  | unpack n p => injection h with h; exact .inr (.inr (.inr (.inr (.inr ⟨_, rfl, rfl, h.symm⟩))))
  | idenc op m => injection h with h; exact .inr (.inr (.inr (.inr (.inl ⟨_, rfl, rfl, h.symm⟩))))
  | iddec id => injection h with h; exact .inr (.inr (.inr (.inr (.inr ⟨_, rfl, rfl, h.symm⟩))))
  | buildDisable m c => injection h with h; exact .inl ⟨_, rfl, rfl, h.symm⟩
  | buildEnable m c => injection h with h; exact .inl ⟨_, rfl, rfl, h.symm⟩
  | buildControl m c => injection h with h; exact .inl ⟨_, rfl, rfl, h.symm⟩
  | buildUnknown op m c => injection h with h; exact .inl ⟨_, rfl, rfl, h.symm⟩
  | parseDisable rx => injection h with h; exact .inr (.inl ⟨_, rfl, rfl, h.symm⟩)
  | parseEnable rx => injection h with h; exact .inr (.inl ⟨_, rfl, rfl, h.symm⟩)
  | parseControl rx => injection h with h; exact .inr (.inl ⟨_, rfl, rfl, h.symm⟩)
  | parseUnknown rx => injection h with h; exact .inr (.inl ⟨_, rfl, rfl, h.symm⟩)

/-- Everything a step can answer: it idles, or it takes the next request and runs what the request decodes to. -/
theorem step_next_cases (s t : State) (h : step s = .next t) :
    (s.pending = [] ∧ t = s)
    ∨ ∃ r rest i, s.pending = r :: rest ∧ decode r = .ok i ∧ exec i (s.take rest) = .next t := by
  unfold step at h
  split at h
  · injection h with h
    exact .inl ⟨‹_›, h.symm⟩
  · split at h
    · exact .inr ⟨_, _, _, ‹_›, ‹_›, h⟩
    · cases h

end Sys2Proof.Machine
end

