-- ==== Sys2Proof/Laws/PerInstr.lean ====
section
/-! SUPPORT. Facts about every instruction, one lemma per constructor. -/

namespace Sys2Proof.Laws

/-- The request that presents an instruction has the length of its port's input record. -/
def RecordLength.Statement (i : Instr) : Prop :=
  ∀ r, encode i = some r → r.bytes.length = recordLength r.port

theorem encodeTx_length (op : BitVec 6) (m : BitVec 5) (c : CommandIn) :
    (encodeTx op m c).bytes.length = recordLength .tx := by
  simp [encodeTx, recordLength]

theorem encodeRx_length (rx : RxIn) : (encodeRx rx).bytes.length = recordLength .rx := by
  simp [encodeRx, recordLength]

theorem RecordLength.quant (x : F64) (r : ScalarRange) : RecordLength.Statement (.quant x r) := by
  intro q h
  obtain rfl := Option.some.inj h
  simp [recordLength]

theorem RecordLength.dequant (c : BitVec 32) (r : ScalarRange) : RecordLength.Statement (.dequant c r) := by
  intro q h
  obtain rfl := Option.some.inj h
  simp [recordLength]

theorem RecordLength.pack (c : MotorCommand) : RecordLength.Statement (.pack c) := fun _ h => nomatch h

theorem RecordLength.unpack (n : BitVec 4) (p : Payload) : RecordLength.Statement (.unpack n p) := fun _ h => nomatch h

theorem RecordLength.idenc (op : BitVec 6) (m : BitVec 5) : RecordLength.Statement (.idenc op m) := fun _ h => nomatch h

theorem RecordLength.iddec (id : BitVec 32) : RecordLength.Statement (.iddec id) := fun _ h => nomatch h

theorem RecordLength.buildDisable (m : BitVec 5) (c : CommandIn) : RecordLength.Statement (.buildDisable m c) := by
  intro q h
  obtain rfl := Option.some.inj h
  exact encodeTx_length _ _ _

theorem RecordLength.buildEnable (m : BitVec 5) (c : CommandIn) : RecordLength.Statement (.buildEnable m c) := by
  intro q h
  obtain rfl := Option.some.inj h
  exact encodeTx_length _ _ _

theorem RecordLength.buildControl (m : BitVec 5) (c : CommandIn) : RecordLength.Statement (.buildControl m c) := by
  intro q h
  obtain rfl := Option.some.inj h
  exact encodeTx_length _ _ _

theorem RecordLength.buildUnknown (op : BitVec 6) (m : BitVec 5) (c : CommandIn) :
    RecordLength.Statement (.buildUnknown op m c) := by
  intro q h
  obtain rfl := Option.some.inj h
  exact encodeTx_length _ _ _

theorem RecordLength.parseDisable (rx : RxIn) : RecordLength.Statement (.parseDisable rx) := by
  intro q h
  obtain rfl := Option.some.inj h
  exact encodeRx_length _

theorem RecordLength.parseEnable (rx : RxIn) : RecordLength.Statement (.parseEnable rx) := by
  intro q h
  obtain rfl := Option.some.inj h
  exact encodeRx_length _

theorem RecordLength.parseControl (rx : RxIn) : RecordLength.Statement (.parseControl rx) := by
  intro q h
  obtain rfl := Option.some.inj h
  exact encodeRx_length _

theorem RecordLength.parseUnknown (rx : RxIn) : RecordLength.Statement (.parseUnknown rx) := by
  intro q h
  obtain rfl := Option.some.inj h
  exact encodeRx_length _

end Sys2Proof.Laws
end

