-- ==== Sys2Proof/Tests/Slice0.lean ====
section
/-! SUPPORT. Tests: ill-formed terms refused, words written out from the spec decode, at most two small tests per
instruction with results from spec/95_test_vectors.md, and a witness for the hypotheses of every statement that has
some. -/

namespace Sys2Proof.Tests

set_option Elab.async false

open Sys2Proof.Machine

/-! ### Helpers -/

def afterTx (r : Host.Outcome State Fault Refusal) : Option TxOut :=
  match r with
  | .next t => some t.txOut
  | _ => none

def afterRx (r : Host.Outcome State Fault Refusal) : Option RxOut :=
  match r with
  | .next t => some t.rxOut
  | _ => none

def afterQ (r : Host.Outcome State Fault Refusal) : Option QOut :=
  match r with
  | .next t => some t.qOut
  | _ => none

def afterDq (r : Host.Outcome State Fault Refusal) : Option DqOut :=
  match r with
  | .next t => some t.dqOut
  | _ => none

def refusalOf (r : Host.Outcome State Fault Refusal) : Option Refusal :=
  match r with
  | .refused e => some e
  | _ => none

/-- The command of Scenario 1 (V-S1): 5.0, 0.0, 0.0, 5.0, 0.0. -/
def scenario1 : MotorCommand :=
  { pos := 0x4014000000000000#64, vel := 0, trq := 0, kp := 0x4014000000000000#64, kd := 0 }

/-- Every field at its maximum (V-K-03). -/
def maxima : MotorCommand :=
  { pos := 0x4044000000000000#64, vel := 0x4044000000000000#64, trq := 0x4044000000000000#64
    kp := 0x408FF80000000000#64, kd := 0x4049800000000000#64 }

/-- All five out of range (V-K-10): 41.0, 45.0, -41.0, 1024.0, 51.2. -/
def outOfRange : MotorCommand :=
  { pos := 0x4044800000000000#64, vel := 0x4046800000000000#64, trq := 0xC044800000000000#64
    kp := 0x4090000000000000#64, kd := 0x404999999999999A#64 }

/-- NaN position and kp out of range (V-T-17s). -/
def nanAndOutOfRange : MotorCommand :=
  { pos := 0x7FF8000000000000#64, vel := 0, trq := 0, kp := 0x409F400000000000#64, kd := 0 }

def present (c : MotorCommand) : CommandIn := { valid := true, cmd := c }

def absent : CommandIn := { valid := false, cmd := nanAndOutOfRange }

def strictState : State := { State.reset with config := { rxVelShift := .four, strictRange := true } }

/-! ### Ill-formed terms are refused (one for each check of WellFormed and of the range invariant) -/

theorem test_wf_buildUnknown_known_opcodes :
    WellFormed (.buildUnknown 1 0 absent) = false ∧ WellFormed (.buildUnknown 2 0 absent) = false
    ∧ WellFormed (.buildUnknown 4 0 absent) = false ∧ WellFormed (.buildUnknown 3 0 absent) = true := by decide

theorem test_wf_parse_wrong_opcode :
    WellFormed (.parseDisable { id := 0x041, len := 0, data := 0 }) = false
    ∧ WellFormed (.parseEnable { id := 0x021, len := 0, data := 0 }) = false
    ∧ WellFormed (.parseControl { id := 0x0E3, len := 8, data := 0 }) = false
    ∧ WellFormed (.parseUnknown { id := 0x090, len := 8, data := 0 }) = false := by decide

theorem test_range_checks :
    rangeOk Numerics.reference { txPos with max := txPos.min } = false
    ∧ rangeOk Numerics.reference { txPos with max := 0x7FF0000000000000#64 } = false
    ∧ rangeOk Numerics.reference { txPos with min := 0xFFF0000000000000#64 } = false
    ∧ rangeOk Numerics.reference { txPos with bits := 0 } = false
    ∧ rangeOk Numerics.reference { txPos with bits := 33 } = false
    ∧ rangeOk Numerics.reference { txPos with bits := 32 } = true := by decide +kernel

theorem test_decode_rejects_by_name :
    decode { port := .tx, bytes := [] } = .error .recordLength
    ∧ decode { port := .tx, bytes := leBytes 43 0x800 } = .error .identifierTooWide
    ∧ decode { port := .tx, bytes := leBytes 43 0x020000 } = .error .validTooWide
    ∧ decode { port := .rx, bytes := leBytes 13 0x1000000000 } = .error .lengthTooWide
    ∧ decode { port := .q, bytes := List.replicate 24 0 ++ [64] } = .error .bitsTooWide
    ∧ decode { port := .dq, bytes := List.replicate 20 0 ++ [255] } = .error .bitsTooWide := by decide +kernel

/-! ### Words written out from the encodings of the spec (R60, R61, R26 to R31) -/

/-- FID-TX `oooooo aaaaa`, command absent, fields zero. -/
theorem test_decode_build_words :
    decodeTableWord 16 0b00000100011 = some (.buildDisable 0b00011 { valid := false, cmd := ⟨0, 0, 0, 0, 0⟩ })
    ∧ decodeTableWord 16 0b00001000001 = some (.buildEnable 0b00001 { valid := false, cmd := ⟨0, 0, 0, 0, 0⟩ })
    ∧ decodeTableWord 16 0b00010011111 = some (.buildControl 0b11111 { valid := false, cmd := ⟨0, 0, 0, 0, 0⟩ })
    ∧ decodeTableWord 16 0b11111111111 =
      some (.buildUnknown 0b111111 0b11111 { valid := false, cmd := ⟨0, 0, 0, 0, 0⟩ }) := by decide +kernel

/-- FID-RX `x(21) oooooo x aaaa`, length and data zero. -/
theorem test_decode_parse_words :
    decodeTableWord 32 0b11111111111111111111100000110011 =
      some (.parseDisable { id := 0xFFFFF833, len := 0, data := 0 })
    ∧ decodeTableWord 32 0b00000000000000000000000001000001 = some (.parseEnable { id := 0x41, len := 0, data := 0 })
    ∧ decodeTableWord 32 0b00000000000000000000000010010000 = some (.parseControl { id := 0x90, len := 0, data := 0 })
    ∧ decodeTableWord 32 0b00000000000000000000100000000000 =
      some (.parseUnknown { id := 0x800, len := 0, data := 0 }) := by decide +kernel

/-- A bare payload is no transaction (R73). -/
theorem test_decode_payload_word : decodeTableWord 64 0x427FF38187782480 = none := by decide +kernel

/-- A whole TX record: FID-TX 0x081, command present, 5.0 in position (bytes of 0x4014000000000000), rest zero. -/
theorem test_decode_tx_record :
    decode { port := .tx, bytes := [0x81, 0x00, 0x01] ++ [0, 0, 0, 0, 0, 0, 0x14, 0x40] ++ List.replicate 32 0 } =
      .ok (.buildControl 1 { valid := true, cmd := ⟨0x4014000000000000#64, 0, 0, 0, 0⟩ }) := by decide +kernel

/-- A whole RX record (V-S2). -/
theorem test_decode_rx_record :
    decode { port := .rx
             bytes := [0x90, 0x00, 0x00, 0x00] ++ [0x08] ++ [0x8C, 0x24, 0x78, 0x87, 0x81, 0xF3, 0x7F, 0x42] } =
      .ok (.parseControl { id := 0x90, len := 8, data := 0x427FF3818778248C#64 }) := by decide +kernel

/-- Q and DQ records: x 5.0 on TX_POS; code 33 on RX_TEMP. -/
theorem test_decode_q_dq_records :
    decode { port := .q
             bytes := [0, 0, 0, 0, 0, 0, 0x14, 0x40] ++ [0, 0, 0, 0, 0, 0, 0x44, 0xC0]
               ++ [0, 0, 0, 0, 0, 0, 0x44, 0x40] ++ [16] } = .ok (.quant 0x4014000000000000#64 txPos)
    ∧ decode { port := .dq
               bytes := [33, 0, 0, 0] ++ [0, 0, 0, 0, 0, 0, 0x34, 0xC0] ++ [0, 0, 0, 0, 0, 0, 0x69, 0x40] ++ [7] } =
      .ok (.dequant 33 rxTemp) := by decide +kernel

/-! ### The instructions (vectors of spec/95_test_vectors.md) -/

/-- V-Q-50: the order of the three operations shows. -/
theorem test_quant_order : afterQ (exec (.quant 0xC042FAE6FAE6FAE7#64 txPos) State.reset) =
    some { code := 0x00000687, fault := false, oor := false } := by decide +kernel

/-- V-Q-30 and V-Q-85: -1.0 on TX_KP wraps; 1024.0 is out of range in the strict variant. -/
theorem test_quant_wraps_or_reports : afterQ (exec (.quant 0xBFF0000000000000#64 txKp) State.reset) =
      some { code := 0xFFFFFFFF, fault := false, oor := false }
    ∧ (afterQ (exec (.quant 0x4090000000000000#64 txKp) strictState)).map (fun o => (o.fault, o.oor)) =
      some (false, true) := by decide +kernel

/-- V-DQ-08: a code above N is no error. -/
theorem test_dequant_above_N : afterDq (exec (.dequant 65536 txPos) State.reset) =
    some { y := 0x4044002800280028#64, fault := false } := by decide +kernel

/-- V-DQ-22 and an ill-formed range. -/
theorem test_dequant_gain_and_refusal : afterDq (exec (.dequant 3 txKd) State.reset) =
      some { y := 0x3FE3333333333333#64, fault := false }
    ∧ refusalOf (exec (.dequant 3 { txKd with bits := 0 }) State.reset) = some .illFormedRange := by decide +kernel

/-- V-K-10: each out-of-range field wraps in its own bits. -/
theorem test_pack_wraps : (afterTx (exec (.pack outOfRange) State.reset)).map TxOut.data =
    some 0xFCCD000003FE0332#64 := by decide +kernel

/-- V-T-17s, on PACK alone: NonFinite before OutOfRangeInput. -/
theorem test_pack_priority : (afterTx (exec (.pack nanAndOutOfRange) strictState)).map TxOut.err = some 2 := by
  decide +kernel

/-- V-U-15 with RX_VEL_SHIFT = 0: nibbles 5 and A OR to F. -/
theorem test_unpack_as_written : (afterRx (exec (.unpack 8 0x000000000A500000#64) State.reset)).map RxOut.vel =
    some 0xC043FDA7FFDA7FFE#64 := by decide +kernel

/-- V-U-15 with RX_VEL_SHIFT = 4. -/
theorem test_unpack_shifted : (afterRx (exec (.unpack 8 0x000000000A500000#64) strictState)).map RxOut.vel =
    some 0xC043FE637FE637FE#64 := by decide +kernel

/-- V-I-06. -/
theorem test_idenc : (afterTx (exec (.idenc 4 17) State.reset)).map TxOut.id = some 0x091 := by decide +kernel

/-- V-I-27. -/
theorem test_iddec : (afterRx (exec (.iddec 0x12345681) State.reset)).map (fun o => (o.opcode, o.motor)) =
    some (52, 1) := by decide +kernel

/-- V-T-08: a NaN in an ignored command is no error. -/
theorem test_buildDisable : afterTx (exec (.buildDisable 3 (present nanAndOutOfRange)) strictState) =
    some { id := 0x023, dlc := 0, data := 0, ok := true, err := 0, unknown := false } := by decide +kernel

/-- V-T-03. -/
theorem test_buildEnable : afterTx (exec (.buildEnable 1 absent) State.reset) =
    some { id := 0x041, dlc := 0, data := 0, ok := true, err := 0, unknown := false } := by decide +kernel

/-- V-T-01 (Scenario 1). -/
theorem test_buildControl : afterTx (exec (.buildControl 1 (present scenario1)) State.reset) =
    some { id := 0x081, dlc := 8, data := 0x7FFF00015FFF8FFF#64, ok := true, err := 0, unknown := false } := by
  decide +kernel

/-- V-T-14s and V-T-09: out of range in the strict variant; no command. -/
theorem test_buildControl_fails : (afterTx (exec (.buildControl 0 (present outOfRange)) strictState)) =
      some { id := 0x080, dlc := 0, data := 0, ok := false, err := 3, unknown := false }
    ∧ (afterTx (exec (.buildControl 2 absent) State.reset)) =
      some { id := 0x082, dlc := 0, data := 0, ok := false, err := 1, unknown := false } := by decide +kernel

/-- V-T-04. -/
theorem test_buildUnknown : afterTx (exec (.buildUnknown 7 3 absent) State.reset) =
    some { id := 0x0E3, dlc := 0, data := 0, ok := true, err := 0, unknown := true } := by decide +kernel

/-- V-R-02. -/
theorem test_parseDisable : (afterRx (exec (.parseDisable { id := 0x023, len := 0, data := 1 }) State.reset)).map
    (fun o => (o.motor, o.opcode, o.ack, o.stateValid)) = some (3, 1, true, false) := by decide +kernel

/-- V-R-09: length and data of an acknowledgment are not read. -/
theorem test_parseEnable :
    (afterRx (exec (.parseEnable { id := 0x041, len := 8, data := 0x427FF3818778248C#64 }) State.reset)).map
      (fun o => (o.motor, o.opcode, o.ack, o.pos)) = some (1, 2, true, 0) := by decide +kernel

/-- V-R-01 (Scenario 2). -/
theorem test_parseControl :
    afterRx (exec (.parseControl { id := 0x090, len := 8, data := 0x427FF3818778248C#64 }) State.reset) =
      some { motor := 0, opcode := 4, stateValid := true, pos := 0x3FE6D7D16D7D16C0#64, vel := 0x3FDE8CA1E8CA1E80#64
             trq := 0xBF8F401F401F4000#64, temp := 0x4042952A54A952A5#64, fault := false, ack := false
             unknown := false, malformed := false } := by decide +kernel

/-- V-R-07: nine bytes are malformed. -/
theorem test_parseControl_malformed :
    (afterRx (exec (.parseControl { id := 0x090, len := 9, data := 0x427FF3818778248C#64 }) State.reset)).map
      (fun o => (o.malformed, o.stateValid, o.pos)) = some (true, false, 0) := by decide +kernel

/-- V-R-04 (Scenario 4). -/
theorem test_parseUnknown : (afterRx (exec (.parseUnknown { id := 0x0E3, len := 0, data := 0 }) State.reset)).map
    (fun o => (o.motor, o.opcode, o.unknown, o.stateValid)) = some (3, 7, true, false) := by decide +kernel

/-- The host's path: a table word fetched as the first transaction after reset. -/
theorem test_step_fetches_table_word :
    afterTx (step (State.reset.withFetchWord 16 0x023)) =
      some { id := 0x023, dlc := 0, data := 0, ok := true, err := 0, unknown := false }
    ∧ (afterRx (step (State.reset.withFetchWord 32 0x090))).map RxOut.malformed = some true := by decide +kernel

/-! ### Witnesses: states and operands that meet the hypotheses of the statements -/

def queued : State := { State.reset with pending := [encodeTx 1 3 absent] }

theorem test_witness_StepRunsTheDecodedTransaction :
    queued.pending = encodeTx 1 3 absent :: [] ∧ decode (encodeTx 1 3 absent) = .ok (.buildDisable 3 absent) := by
  decide +kernel

theorem test_witness_StepIdlesOrRefusesWithoutATransaction :
    State.reset.pending = []
    ∧ ({ State.reset with pending := [{ port := .q, bytes := [] }] } : State).pending = { port := .q, bytes := [] } :: []
    ∧ decode { port := .q, bytes := [] } = .error .recordLength := by decide +kernel

theorem test_witness_DecodeInvertsEncode :
    WellFormed (.buildUnknown 63 31 (present maxima)) = true
    ∧ encode (.buildUnknown 63 31 (present maxima)) = some (encodeTx 63 31 (present maxima)) := by decide +kernel

theorem test_witness_EncodeInvertsDecode :
    decode { port := .rx, bytes := leBytes 13 0x800000090 } = .ok (.parseControl { id := 0x90, len := 8, data := 0 }) := by
  decide +kernel

/-- Used by IddecReadsOpcodeAndFourAddressBits and IgnoredIdentifierBitsAreNotRead. -/
theorem test_witness_ignored_identifier_bits :
    (0xFFFFF890#32 &&& 0x7EF#32) = (0x080#32 &&& 0x7EF#32) ∧ 0xFFFFF890#32 ≠ 0x080#32 := by decide

/-- Used by UnknownOpcodeFrameIsBuilt: the boundary opcodes. -/
theorem test_witness_unknown_opcodes : ∀ op ∈ [0#6, 3#6, 5#6, 63#6], op ≠ 1 ∧ op ≠ 2 ∧ op ≠ 4 := by decide

/-- Used by ControlWithNonFiniteFieldFails and by the second clause of PackWritesThePayloadOrRaises. -/
theorem test_witness_non_finite_field :
    ∃ f ∈ commandFields nanAndOutOfRange, quantFinite f.1 (quantSteps Numerics.reference f.1 f.2) = false := by
  decide +kernel

/-- Used by StrictControlOutOfRangeFails and by the third clause of PackWritesThePayloadOrRaises. -/
theorem test_witness_strict_out_of_range :
    strictState.config.strictRange = true
    ∧ (∀ f ∈ commandFields outOfRange, quantFinite f.1 (quantSteps Numerics.reference f.1 f.2) = true)
    ∧ (∃ f ∈ commandFields outOfRange,
      F64.units f.1 < F64.units f.2.min ∨ F64.units f.2.max < F64.units f.1) := by decide +kernel

/-- Used by ControlFrameIsBuilt and by the first clause of PackWritesThePayloadOrRaises: the maxima, in the strict
variant. -/
theorem test_witness_strict_at_the_ends :
    strictState.config.strictRange = true
    ∧ (∀ f ∈ commandFields maxima, quantFinite f.1 (quantSteps Numerics.reference f.1 f.2) = true)
    ∧ (∀ f ∈ commandFields maxima,
      F64.units f.2.min ≤ F64.units f.1 ∧ F64.units f.1 ≤ F64.units f.2.max) := by decide +kernel

/-- Used by InRangeCommandIsBuiltFaithfully and by RoundTripBoundHoldsOnGains (kp and kd at their maximum). -/
theorem test_witness_in_range :
    ∀ f ∈ commandFields maxima, F64.finite f.1 = true
      ∧ F64.units f.2.min ≤ F64.units f.1 ∧ F64.units f.1 ≤ F64.units f.2.max := by decide +kernel

/-- Used by EveryPayloadBitComesFromOneCodeBit: kp codes 0x64 and 0x67 agree from bit 2 up. -/
theorem test_witness_low_two_bits (j : Nat) (h : 2 ≤ j) : (0x67#32).getLsbD j = (0x64#32).getLsbD j := by
  rcases Nat.lt_or_ge j 32 with hj | hj
  · interval_cases j <;> decide
  · rw [BitVec.getLsbD_of_ge _ _ hj, BitVec.getLsbD_of_ge _ _ hj]

/-- Used by PackCannotFailOnModerateInputs, out of range. -/
theorem test_witness_moderate :
    State.reset.config.strictRange = false
    ∧ (∀ f ∈ commandFields outOfRange, F64.finite f.1 = true ∧ F64.mag f.1 < 10 ^ 300 * F64.one) := by decide +kernel

/-- Used by QuantRunsByTheFormula: its three clauses, and the range hypothesis of the QUANT and DEQUANT statements. -/
theorem test_witness_quant_clauses :
    rangeOk Numerics.reference txPos = true ∧ F64.finite (fsub txPos.max txPos.min) = true
    ∧ quantFinite 0x7FE1CCF385EBC8A0#64 (quantSteps Numerics.reference 0x7FE1CCF385EBC8A0#64 txPos) = false
    ∧ quantFinite 0x40440020C49BA5E3#64 (quantSteps Numerics.reference 0x40440020C49BA5E3#64 txPos) = true
    ∧ flt txPos.max 0x40440020C49BA5E3#64 = true
    ∧ quantFinite txPos.max (quantSteps Numerics.reference txPos.max txPos) = true
    ∧ (flt txPos.max txPos.min || flt txPos.max txPos.max) = false := by decide +kernel

/-- Used by ConversionsAreExactAndTruncate. -/
theorem test_witness_conversions :
    (2 ^ 32 - 1 < 2 ^ 32) ∧ F64.finite 0xBFE0000000000000#64 = true ∧ F64.units 0xBFE0000000000000#64 ≤ 0
    ∧ 0 ≤ F64.units 0x40BFFF8000000000#64 := by decide +kernel

/-- Used by HugeQuotientsGiveCodeZero: the pattern of 2^85. -/
theorem test_witness_huge :
    F64.finite 0x4540000000000000#64 = true ∧ F64.mag 0x4540000000000000#64 = 2 ^ 85 * F64.one := by decide +kernel

/-- Used by QuantIsMonotone. -/
theorem test_witness_monotone :
    F64.units txKp.min ≤ F64.units txKp.max
    ∧ (match quantize Numerics.reference true txKp.min txKp with | .ok t => t == 0 | .error _ => false) = true
    ∧ (match quantize Numerics.reference true txKp.max txKp with | .ok t => t == 1023 | .error _ => false) = true := by
  decide +kernel

/-- Used by GainCodesReencodeToThemselves: the last code of each clause, in both variants. -/
theorem test_witness_last_gain_codes :
    (1023 < 2 ^ 10 ∧ 255 < 2 ^ 8)
    ∧ (∀ strict : Bool,
      (quantize Numerics.reference strict (dequantSteps Numerics.reference 1023 txKp).y txKp).toOption = some 1023
      ∧ (quantize Numerics.reference strict (dequantSteps Numerics.reference 255 txKd).y txKd).toOption = some 255) := by
  decide +kernel

/-- Used by DequantRunsByTheFormula, DequantOfZeroIsMin: a range with a finite span, and one whose span overflows. -/
theorem test_witness_dequant_clauses :
    dequantFinite (dequantSteps Numerics.reference 65535 txPos) = true
    ∧ rangeOk Numerics.reference { min := 0xFFEFFFFFFFFFFFFF#64, max := 0x7FEFFFFFFFFFFFFF#64, bits := 8 } = true
    ∧ dequantFinite (dequantSteps Numerics.reference 1
        { min := 0xFFEFFFFFFFFFFFFF#64, max := 0x7FEFFFFFFFFFFFFF#64, bits := 8 }) = false := by decide +kernel

/-- Used by VelocityExtractionByShift (two payloads with the same raw fields exist). -/
theorem test_witness_same_raw_fields :
    velocityRaw .four 0x0102030405060708#64 = velocityRaw .four 0x0102030405060708#64
    ∧ velocityRaw .zero 0x000000000A500000#64 = velocityRaw .zero 0x0000000005A00000#64 := by decide +kernel

/-- Used by WrongLengthIsMalformed and ControlFrameIsParsed: the lengths around 8. -/
theorem test_witness_lengths :
    (0#4 ≠ 8) ∧ (7#4 ≠ 8) ∧ (9#4 ≠ 8) ∧ (15#4 ≠ 8) ∧ (0x090#32).extractLsb' 5 6 = 4#6 := by decide

/-- Used by AcknowledgmentsAreParsed and UnknownOpcodeIsParsed. -/
theorem test_witness_received_opcodes :
    (0x023#32).extractLsb' 5 6 = 1#6 ∧ (0x041#32).extractLsb' 5 6 = 2#6
    ∧ (0x000#32).extractLsb' 5 6 = 0#6 ∧ (0x07F#32).extractLsb' 5 6 = 3#6
    ∧ (0x0A0#32).extractLsb' 5 6 = 5#6 ∧ (0xFFFFFFFF#32).extractLsb' 5 6 = 63#6 := by decide

/-- Used by EveryPayloadDecodesInRange. -/
theorem test_witness_code_up_to_N : rxTemp ∈ [rxPos, rxVel, rxTrq, rxTemp] ∧ 127 ≤ 2 ^ rxTemp.bits.toNat - 1 := by
  decide

/-- A state in which one Disable frame was built, with a second request pending. -/
def afterOneDisable : State :=
  { State.reset with
    txOut := { id := 0x023, dlc := 0, data := 0, ok := true, err := 0, unknown := false }
    results := [.tx { id := 0x023, dlc := 0, data := 0, ok := true, err := 0, unknown := false }]
    pending := [encodeTx 2 1 absent] }

/-- Used by StepKeepsTheInvariant, NothingIsConfiguredAtRunTime and PortsShareNothing. -/
theorem test_witness_StepKeepsTheInvariant : afterOneDisable.Inv ∧ ∃ t, step afterOneDisable = .next t := by
  refine ⟨⟨?_, rfl, rfl, rfl, rfl⟩, _, rfl⟩
  intro o ho
  simp only [afterOneDisable, List.mem_singleton] at ho
  subst ho
  simp only [Output.Lawful, TxOut.Lawful, TxOut.opcode, IsKnown]
  decide

/-- Used by OutputsDependOnInputsOnly: the same request after different histories. -/
theorem test_witness_OutputsDependOnInputsOnly :
    afterOneDisable.pending = encodeTx 2 1 absent :: []
    ∧ ({ State.reset with pending := [encodeTx 2 1 absent] } : State).pending = encodeTx 2 1 absent :: []
    ∧ afterOneDisable.config = State.reset.config ∧ accepted (encodeTx 2 1 absent) = true := by decide +kernel

/-- Used by RunAnswersEachTransactionAsAlone and PermutedRunsAnswerAlike: a faulted QUANT between two frames, in two
orders. -/
theorem test_witness_runs :
    let a := encodeTx 1 3 absent
    let b : Request := { port := .q, bytes := realBytes 0x7FF8000000000000#64 ++ rangeBytes txPos }
    let c := encodeRx { id := 0x090, len := 8, data := 0x427FF3818778248C#64 }
    (∀ r ∈ [a, b, c], accepted r = true) ∧ [a, b, c].Perm [c, a, b] := by decide +kernel

/-- Used by TransportBoundary. -/
theorem test_witness_TransportBoundary :
    (txDefaults 1 3).ok = true ∧ ((txDefaults 4 3).fail .nonFinite).ok = false
    ∧ (8#8).toNat ≤ 8 ∧ 7 < (8#8).toNat ∧ 0 < [0x42#8].length := by decide

/-- The bytes that go out are the payload's, byte 0 first (R43, R199): two and all eight of the payload of V-S2. -/
theorem test_wire_bytes :
    ({ frameId := 0x081, dlc := 2, payload := 0x427FF3818778248C#64 } : SendCall).wireBytes = [0x8C, 0x24]
    ∧ ({ frameId := 0x081, dlc := 8, payload := 0x427FF3818778248C#64 } : SendCall).wireBytes =
      [0x8C, 0x24, 0x78, 0x87, 0x81, 0xF3, 0x7F, 0x42] := by decide +kernel

/-- Used by PayloadReadsAndWrites: the ends of the payload. -/
theorem test_witness_PayloadReadsAndWrites : 0 + 8 ≤ 8 ∧ 8 + 0 ≤ 8 ∧ 7 + 1 ≤ 8 := by decide

/-- Used by the four statements about the numerics: operands at the ends of the format, an overflow, a tie, zeros. -/
theorem test_witness_numerics :
    F64.finite 0x7FEFFFFFFFFFFFFF#64 = true ∧ F64.finite 0x0000000000000001#64 = true
    ∧ F64.finite 0x7FF0000000000000#64 = false ∧ F64.units 0x8000000000000000#64 = 0
    ∧ F64.units 0x3FF0000000000000#64 ≠ 0
    ∧ F64.finite (fadd 0x7FEFFFFFFFFFFFFF#64 0x7FEFFFFFFFFFFFFF#64) = false
    ∧ fadd 0x3FF0000000000000#64 0x3CA0000000000000#64 = 0x3FF0000000000000#64
    ∧ F64.units 0x4014000000000000#64 + F64.units 0xC014000000000000#64 = 0 := by decide +kernel

end Sys2Proof.Tests
end

/-! PROOFS. The format (00_scope.md R13): a pattern without its sign bit is a number that grows with the magnitude. It is
`j * 2 ^ 52 + t` where the magnitude is `t * 2 ^ j`, so everything about packing and unpacking is said of `t` and `j`. -/

namespace Sys2Proof.Machine

/-! ### Magnitudes as significand and exponent -/

/-- `t * 2 ^ j` is a significand of at most 53 bits, or 2^53 itself, at its quantum: full 53 bits unless the quantum is
one unit. -/
def Scaled (t j : Nat) : Prop := t ≤ 2 ^ 53 ∧ (j = 0 ∨ 2 ^ 52 ≤ t)

/-- The number that stands in bits 62 to 0 for a magnitude (R13), before it is capped at infinity. -/
def ordinal (n : Nat) : Nat := (Nat.log2 n - 52) * 2 ^ 52 + n / 2 ^ (Nat.log2 n - 52)

/-- An integer by its sign and magnitude. -/
def signed (neg : Bool) (n : Nat) : Int := if neg then -(n : Int) else n

theorem units_eq_signed (a : F64) : F64.units a = signed (F64.sign a) (F64.mag a) := rfl

@[simp] theorem signed_natAbs (neg : Bool) (n : Nat) : (signed neg n).natAbs = n := by
  cases neg <;> simp [signed]

@[simp] theorem signed_eq_zero (neg : Bool) (n : Nat) : signed neg n = 0 ↔ n = 0 := by
  cases neg <;> simp [signed]

theorem signed_not (neg : Bool) (n : Nat) : signed (!neg) n = -signed neg n := by
  cases neg <;> simp [signed]

theorem signed_mul (neg neg' : Bool) (m n : Nat) : signed neg m * signed neg' n = signed (neg != neg') (m * n) := by
  cases neg <;> cases neg' <;> simp [signed]

theorem signed_natAbs_of_neg (u : Int) : signed (decide (u < 0)) u.natAbs = u := by
  rcases lt_or_ge u 0 with hu | hu
  · simp [signed, hu, abs_of_neg hu]
  · simp [signed, not_lt.mpr hu, abs_of_nonneg hu]

@[simp] theorem units_natAbs (a : F64) : (F64.units a).natAbs = F64.mag a := signed_natAbs _ _

@[simp] theorem units_eq_zero (a : F64) : F64.units a = 0 ↔ F64.mag a = 0 := signed_eq_zero _ _

theorem log2_scaled {t j : Nat} (ht : t < 2 ^ 53) (hj : 2 ^ 52 ≤ t) : Nat.log2 (t * 2 ^ j) = 52 + j := by
  have hpos : t * 2 ^ j ≠ 0 := Nat.mul_ne_zero (by omega) (by positivity)
  rw [Nat.log2_eq_iff hpos, show 52 + j + 1 = 53 + j by omega, Nat.pow_add, Nat.pow_add]
  exact ⟨Nat.mul_le_mul_right _ hj, Nat.mul_lt_mul_of_pos_right ht (by positivity)⟩

/-- The ordinal of a scaled magnitude, the one that has just carried to the next power of two included. -/
theorem ordinal_scaled {t j : Nat} (h : Scaled t j) : ordinal (t * 2 ^ j) = j * 2 ^ 52 + t := by
  obtain ⟨ht, hj⟩ := h
  have hdiv : ∀ u i : Nat, u * 2 ^ i / 2 ^ i = u := fun u i => Nat.mul_div_cancel u (by positivity)
  rcases Nat.lt_or_ge t (2 ^ 52) with hlow | hhigh
  · obtain rfl : j = 0 := by omega
    have hlog : Nat.log2 t - 52 = 0 := by
      rcases Nat.eq_zero_or_pos t with rfl | hpos
      · rfl
      · have := (Nat.log2_lt hpos.ne').mpr hlow
        omega
    simp [ordinal, hlog]
  · rcases Nat.lt_or_eq_of_le ht with hfull | rfl
    · rw [ordinal, log2_scaled hfull hhigh, Nat.add_sub_cancel_left, hdiv]
    · have hcarry : (2 ^ 53 * 2 ^ j : Nat) = 2 ^ 52 * 2 ^ (j + 1) := by ring
      rw [ordinal, hcarry, log2_scaled (by norm_num) le_rfl, Nat.add_sub_cancel_left, hdiv]
      omega

/-- Every number is the ordinal of a scaled magnitude. -/
theorem exists_scaled_ordinal (k : Nat) : ∃ t j, Scaled t j ∧ t < 2 ^ 53 ∧ k = j * 2 ^ 52 + t := by
  have hlow : k - (k / 2 ^ 52 - 1) * 2 ^ 52 < 2 ^ 53 := by omega
  exact ⟨k - (k / 2 ^ 52 - 1) * 2 ^ 52, k / 2 ^ 52 - 1, ⟨hlow.le, by omega⟩, hlow, by omega⟩

/-- The magnitude of a subnormal pattern or a zero (R13). -/
theorem mag_of_lt {a : F64} (h : a.toNat % 2 ^ 63 < 2 ^ 52) : F64.mag a = a.toNat % 2 ^ 63 := by
  have hexp : F64.expo a = 0 := by unfold F64.expo; omega
  have hfrac : F64.frac a = a.toNat % 2 ^ 63 := by unfold F64.frac; omega
  rw [F64.mag, if_pos hexp, hfrac]

/-- The magnitude of a normal pattern (R13). -/
theorem mag_of_normal {a : F64} {t j : Nat} (ht : 2 ^ 52 ≤ t) (ht' : t < 2 ^ 53)
    (h : a.toNat % 2 ^ 63 = j * 2 ^ 52 + t) : F64.mag a = t * 2 ^ j := by
  have hexp : F64.expo a = j + 1 := by unfold F64.expo; omega
  have hfrac : 2 ^ 52 + F64.frac a = t := by unfold F64.frac; omega
  rw [F64.mag, if_neg (by omega), hexp, hfrac, Nat.add_sub_cancel]

/-- The magnitude of a pattern, read from its ordinal. -/
theorem mag_of_ordinal {a : F64} {t j : Nat} (h : Scaled t j) (ha : a.toNat % 2 ^ 63 = j * 2 ^ 52 + t) :
    F64.mag a = t * 2 ^ j := by
  obtain ⟨ht, hj⟩ := h
  rcases Nat.lt_or_ge t (2 ^ 52) with hlow | hhigh
  · obtain rfl : j = 0 := by omega
    rw [mag_of_lt (by omega), ha, pow_zero]
    omega
  · rcases Nat.lt_or_ge t (2 ^ 53) with hfull | hcarry
    · exact mag_of_normal hhigh hfull ha
    · have htop : t = 2 ^ 52 * 2 := le_antisymm ht hcarry
      rw [htop] at ha ⊢
      rw [mag_of_normal (j := j + 1) le_rfl (by norm_num) (by rw [ha]; ring)]
      ring

theorem finite_iff (a : F64) : F64.finite a = true ↔ a.toNat % 2 ^ 63 < 2047 * 2 ^ 52 := by
  have hexp : F64.finite a = true ↔ F64.expo a ≠ 2047 := by rw [F64.finite, bne_iff_ne]
  rw [hexp, F64.expo]
  generalize a.toNat = n
  omega

/-- A finite magnitude is one of at most 53 significant bits. -/
theorem mag_eq_scaled (a : F64) : ∃ t j, t < 2 ^ 53 ∧ F64.mag a = t * 2 ^ j := by
  obtain ⟨t, j, h, ht, ha⟩ := exists_scaled_ordinal (a.toNat % 2 ^ 63)
  exact ⟨t, j, ht, mag_of_ordinal h ha⟩

/-! ### Packing -/

theorem packMag_toNat (neg : Bool) (n : Nat) :
    (packMag neg n).toNat = (if neg then 2 ^ 63 else 0) + min (ordinal n) (2047 * 2 ^ 52) := by
  have hmin : ∀ m k : Nat, Nat.min m k = min m k := fun _ _ => rfl
  rw [packMag, BitVec.toNat_ofNat, hmin, ← ordinal, Nat.mod_eq_of_lt]
  split <;> omega

theorem packMag_toNat_mod (neg : Bool) (n : Nat) :
    (packMag neg n).toNat % 2 ^ 63 = min (ordinal n) (2047 * 2 ^ 52) := by
  rw [packMag_toNat]
  split <;> omega

@[simp] theorem sign_packMag (neg : Bool) (n : Nat) : F64.sign (packMag neg n) = neg := by
  rw [F64.sign, packMag_toNat]
  cases neg <;> simp

theorem finite_packMag_iff (neg : Bool) (n : Nat) :
    F64.finite (packMag neg n) = true ↔ ordinal n < 2047 * 2 ^ 52 := by
  rw [finite_iff, packMag_toNat_mod]
  omega

theorem packMag_toNat_mod_of_finite {neg : Bool} {n : Nat} (hf : F64.finite (packMag neg n) = true) :
    (packMag neg n).toNat % 2 ^ 63 = ordinal n := by
  rw [finite_packMag_iff] at hf
  rw [packMag_toNat_mod]
  omega

/-- Packing a scaled magnitude loses nothing, unless it overflows. -/
theorem mag_packMag {neg : Bool} {t j : Nat} (h : Scaled t j) (hf : F64.finite (packMag neg (t * 2 ^ j)) = true) :
    F64.mag (packMag neg (t * 2 ^ j)) = t * 2 ^ j :=
  mag_of_ordinal h (by rw [packMag_toNat_mod_of_finite hf, ordinal_scaled h])

theorem units_packMag {neg : Bool} {t j : Nat} (h : Scaled t j) (hf : F64.finite (packMag neg (t * 2 ^ j)) = true) :
    F64.units (packMag neg (t * 2 ^ j)) = signed neg (t * 2 ^ j) := by
  rw [units_eq_signed, sign_packMag, mag_packMag h hf]

/-- The fraction is even exactly when the significand is. -/
theorem frac_packMag_parity {neg : Bool} {t j : Nat} (h : Scaled t j)
    (hf : F64.finite (packMag neg (t * 2 ^ j)) = true) : F64.frac (packMag neg (t * 2 ^ j)) % 2 = t % 2 := by
  have hord := packMag_toNat_mod_of_finite hf
  rw [ordinal_scaled h] at hord
  unfold F64.frac
  omega

/-- Scaled magnitudes are ordered against a power of two as their ordinals are. -/
theorem scaled_lt_iff {t j : Nat} (h : Scaled t j) (e : Nat) :
    t * 2 ^ j < 2 ^ 53 * 2 ^ e ↔ j * 2 ^ 52 + t < (e + 2) * 2 ^ 52 := by
  obtain ⟨ht, hj⟩ := h
  rcases Nat.lt_trichotomy j e with hlt | rfl | hgt
  · have hp : 2 ^ j < 2 ^ e := Nat.pow_lt_pow_right (by norm_num) hlt
    exact iff_of_true (Nat.mul_lt_mul_of_le_of_lt ht hp (by norm_num)) (by omega)
  · rw [Nat.mul_lt_mul_right (by positivity)]
    omega
  · have hp : 2 ^ (e + 1) ≤ 2 ^ j := Nat.pow_le_pow_right (by norm_num) hgt
    have ht' : 2 ^ 52 ≤ t := by omega
    have hlarge : 2 ^ 52 * 2 ^ (e + 1) ≤ t * 2 ^ j := Nat.mul_le_mul ht' hp
    rw [Nat.pow_succ] at hlarge
    exact iff_of_false (by omega) (by omega)

/-- Overflow of a scaled magnitude: at or above 2^1024 (2^2098 units) the pattern is not finite (R14). -/
theorem finite_packMag_scaled {neg : Bool} {t j : Nat} (h : Scaled t j) :
    F64.finite (packMag neg (t * 2 ^ j)) = true ↔ t * 2 ^ j < 2 ^ 53 * 2 ^ 2045 := by
  rw [finite_packMag_iff, ordinal_scaled h, scaled_lt_iff h]

/-- A finite pattern is the packing of its own sign and magnitude. -/
theorem packMag_sign_mag {a : F64} (hf : F64.finite a = true) : packMag (F64.sign a) (F64.mag a) = a := by
  obtain ⟨t, j, h, -, ha⟩ := exists_scaled_ordinal (a.toNat % 2 ^ 63)
  have hlt := a.isLt
  rw [finite_iff] at hf
  apply BitVec.eq_of_toNat_eq
  rw [packMag_toNat, mag_of_ordinal h ha, ordinal_scaled h, F64.sign]
  simp only [decide_eq_true_eq]
  split <;> omega

/-- Two finite patterns with one sign and one magnitude are one pattern. -/
theorem eq_of_sign_mag {a b : F64} (ha : F64.finite a = true) (hb : F64.finite b = true)
    (hs : F64.sign a = F64.sign b) (hm : F64.mag a = F64.mag b) : a = b := by
  rw [← packMag_sign_mag ha, ← packMag_sign_mag hb, hs, hm]

/-- Settles O57: packing inverts the ordinal, and equal values have equal magnitudes. -/
theorem patternsAreTheirValues : Obligations.PatternsAreTheirValues := by
  unfold Obligations.PatternsAreTheirValues
  refine ⟨fun a ha => packMag_sign_mag ha, fun a b ha hb hu => ?_⟩
  have hm : F64.mag a = F64.mag b := by rw [← units_natAbs a, ← units_natAbs b, hu]
  by_cases hs : F64.sign a = F64.sign b
  · exact .inl (eq_of_sign_mag ha hb hs hm)
  · have hopposite : F64.units a = -F64.units b := by
      rw [units_eq_signed, units_eq_signed, hm, Bool.eq_not.mpr hs, signed_not]
    have hzero : F64.mag b = 0 := (units_eq_zero b).mp (by omega)
    exact .inr ⟨hm.trans hzero, hzero⟩

end Sys2Proof.Machine

/-! PROOFS. Rounding (00_scope.md R14): what `roundQuot` and `fl` answer for any quotient `p / q`, said once for all
operations. -/

namespace Sys2Proof.Machine

/-! ### The rounded quotient -/

/-- The exponent of the quantum of `p / q`. -/
def quantumExp (p q : Nat) : Nat := Nat.log2 (p / q) - 52

/-- How many whole quanta `p / q` holds. -/
def wholeQuanta (p q : Nat) : Nat := p / (q * 2 ^ quantumExp p q)

/-- What `p / q` holds beyond its whole quanta. -/
def remQuanta (p q : Nat) : Nat := p % (q * 2 ^ quantumExp p q)

/-- The rounded significand: one quantum more above the half, and at the half when that makes it even. -/
def roundedQuanta (p q : Nat) : Nat :=
  if q * 2 ^ quantumExp p q < 2 * remQuanta p q
      ∨ (2 * remQuanta p q = q * 2 ^ quantumExp p q ∧ wholeQuanta p q % 2 = 1) then
    wholeQuanta p q + 1
  else wholeQuanta p q

theorem roundedQuanta_cases (p q : Nat) :
    ((q * 2 ^ quantumExp p q < 2 * remQuanta p q
        ∨ (2 * remQuanta p q = q * 2 ^ quantumExp p q ∧ wholeQuanta p q % 2 = 1))
      ∧ roundedQuanta p q = wholeQuanta p q + 1)
    ∨ ((2 * remQuanta p q < q * 2 ^ quantumExp p q
        ∨ (2 * remQuanta p q = q * 2 ^ quantumExp p q ∧ wholeQuanta p q % 2 = 0))
      ∧ roundedQuanta p q = wholeQuanta p q) := by
  unfold roundedQuanta
  split
  · exact .inl ⟨‹_›, rfl⟩
  · exact .inr ⟨by omega, rfl⟩

theorem roundQuot_eq (p q : Nat) : roundQuot p q = roundedQuanta p q * 2 ^ quantumExp p q := rfl

section
variable {p q : Nat}

theorem remQuanta_lt (hq : 0 < q) : remQuanta p q < q * 2 ^ quantumExp p q := Nat.mod_lt _ (by positivity)

theorem quanta_add_rem : wholeQuanta p q * (q * 2 ^ quantumExp p q) + remQuanta p q = p := Nat.div_add_mod' p _

/-- The whole quanta of `p / q` are its leading 53 bits, all of its bits if it has no more. -/
theorem wholeQuanta_bounds : wholeQuanta p q < 2 ^ 53 ∧ (quantumExp p q = 0 ∨ 2 ^ 52 ≤ wholeQuanta p q) := by
  have hdiv : wholeQuanta p q = p / q / 2 ^ quantumExp p q := (Nat.div_div_eq_div_mul p q _).symm
  rw [hdiv]
  have hlog : p / q < 2 ^ (53 + quantumExp p q) :=
    Nat.lt_of_lt_of_le Nat.lt_log2_self (Nat.pow_le_pow_right (by norm_num) (by unfold quantumExp; omega))
  rw [Nat.pow_add] at hlog
  refine ⟨Nat.div_lt_of_lt_mul (by rwa [Nat.mul_comm]), ?_⟩
  by_cases hexp : quantumExp p q = 0
  · exact .inl hexp
  · have hne : p / q ≠ 0 := by
      intro h0
      simp [quantumExp, h0] at hexp
    have hself := Nat.log2_self_le hne
    have hsplit : Nat.log2 (p / q) = 52 + quantumExp p q := by unfold quantumExp at hexp ⊢; omega
    rw [hsplit, Nat.pow_add] at hself
    exact .inr ((Nat.le_div_iff_mul_le (by positivity)).mpr hself)

theorem roundedQuanta_scaled : Scaled (roundedQuanta p q) (quantumExp p q) := by
  obtain ⟨hlt, hfull⟩ := wholeQuanta_bounds (p := p) (q := q)
  unfold roundedQuanta Scaled
  split <;> omega

/-- No magnitude of at most 53 bits lies strictly between two neighbouring multiples of the quantum. -/
theorem scaled_outside_quantum {t j : Nat} (ht : t < 2 ^ 53) :
    t * 2 ^ j ≤ wholeQuanta p q * 2 ^ quantumExp p q ∨ (wholeQuanta p q + 1) * 2 ^ quantumExp p q ≤ t * 2 ^ j := by
  obtain ⟨-, hfull⟩ := wholeQuanta_bounds (p := p) (q := q)
  rcases Nat.lt_or_ge j (quantumExp p q) with hlt | hge
  · have hpow : 2 ^ (j + 1) ≤ 2 ^ quantumExp p q := Nat.pow_le_pow_right (by norm_num) hlt
    have htop : 2 ^ 52 * 2 ^ (j + 1) ≤ wholeQuanta p q * 2 ^ quantumExp p q :=
      Nat.mul_le_mul (by omega) hpow
    have hlow : t * 2 ^ j ≤ 2 ^ 53 * 2 ^ j := Nat.mul_le_mul_right _ ht.le
    rw [Nat.pow_succ] at htop
    exact .inl (by omega)
  · obtain ⟨i, rfl⟩ := Nat.exists_eq_add_of_le hge
    have hmul : t * 2 ^ (quantumExp p q + i) = t * 2 ^ i * 2 ^ quantumExp p q := by ring
    rw [hmul]
    rcases Nat.lt_or_ge (wholeQuanta p q) (t * 2 ^ i) with hgt | hle
    · exact .inr (Nat.mul_le_mul_right _ hgt)
    · exact .inl (Nat.mul_le_mul_right _ hle)

/-- The rounded quotient is at least as near to `p / q` as any magnitude of at most 53 bits, and its significand is even
when another is as near. Distances are in units of `1 / q`. -/
theorem roundQuot_nearest (hq : 0 < q) {t j : Nat} (ht : t < 2 ^ 53) :
    |(roundQuot p q * q - p : Int)| ≤ |((t * 2 ^ j : Nat) * q - p : Int)|
    ∧ (|(roundQuot p q * q - p : Int)| = |((t * 2 ^ j : Nat) * q - p : Int)| → t * 2 ^ j ≠ roundQuot p q →
      roundedQuanta p q % 2 = 0) := by
  have hrem := remQuanta_lt (p := p) hq
  have hp := quanta_add_rem (p := p) (q := q)
  have hscale : ∀ w, w * 2 ^ quantumExp p q * q = w * (q * 2 ^ quantumExp p q) := fun w => by ring
  have hcand : t * 2 ^ j * q ≤ wholeQuanta p q * (q * 2 ^ quantumExp p q)
      ∨ (wholeQuanta p q + 1) * (q * 2 ^ quantumExp p q) ≤ t * 2 ^ j * q := by
    rw [← hscale, ← hscale]
    exact (scaled_outside_quantum ht).imp (Nat.mul_le_mul_right q) (Nat.mul_le_mul_right q)
  have hround : roundQuot p q * q = roundedQuanta p q * (q * 2 ^ quantumExp p q) := by rw [roundQuot_eq, hscale]
  have hdiff : t * 2 ^ j ≠ roundQuot p q → t * 2 ^ j * q ≠ roundQuot p q * q :=
    fun h => (Nat.mul_left_inj hq.ne').not.mpr h
  simp only [Int.abs_eq_natAbs, ← Int.natCast_mul]
  rw [Nat.add_mul, Nat.one_mul] at hcand
  rcases roundedQuanta_cases p q with ⟨hup, hval⟩ | ⟨hdown, hval⟩
  · rw [hval, Nat.add_mul, Nat.one_mul] at hround
    rw [hval]
    constructor <;> omega
  · rw [hval] at hround ⊢
    constructor <;> omega

/-- Below half a quantum under `2 ^ (53 + e + 1)` rounding stays below it, from there on it does not: the last value
below it is odd, so the tie goes up. -/
theorem roundQuot_lt_iff (hq : 0 < q) (e : Nat) :
    roundQuot p q < 2 ^ 53 * 2 ^ (e + 1) ↔ p < (2 ^ 54 - 1) * (q * 2 ^ e) := by
  have hrem := remQuanta_lt (p := p) hq
  have hp := quanta_add_rem (p := p) (q := q)
  obtain ⟨hlt, hfull⟩ := wholeQuanta_bounds (p := p) (q := q)
  have hcases := roundedQuanta_cases p q
  have hunit : 0 < q * 2 ^ e := by positivity
  rw [roundQuot_eq, scaled_lt_iff roundedQuanta_scaled]
  rcases Nat.lt_trichotomy (quantumExp p q) (e + 1) with hlow | hsame | hhigh
  · have hquantum : q * 2 ^ quantumExp p q ≤ q * 2 ^ e :=
      Nat.mul_le_mul_left q (Nat.pow_le_pow_right (by norm_num) (by omega))
    have hwhole : (wholeQuanta p q + 1) * (q * 2 ^ quantumExp p q) ≤ 2 ^ 53 * (q * 2 ^ e) :=
      Nat.mul_le_mul hlt hquantum
    rw [Nat.add_mul, Nat.one_mul] at hwhole
    exact iff_of_true (by omega) (by omega)
  · have hquantum : q * 2 ^ quantumExp p q = 2 * (q * 2 ^ e) := by rw [hsame]; ring
    rw [hquantum] at hrem hp hcases
    rcases Nat.lt_or_eq_of_le (Nat.le_sub_one_of_lt hlt) with hbelow | htop
    · have hwhole : (wholeQuanta p q + 1) * (2 * (q * 2 ^ e)) ≤ (2 ^ 53 - 1) * (2 * (q * 2 ^ e)) :=
        Nat.mul_le_mul_right _ hbelow
      rw [Nat.add_mul, Nat.one_mul] at hwhole
      exact iff_of_true (by omega) (by omega)
    · rw [htop] at hp hcases
      omega
  · have hquantum : q * 2 ^ (e + 2) ≤ q * 2 ^ quantumExp p q :=
      Nat.mul_le_mul_left q (Nat.pow_le_pow_right (by norm_num) hhigh)
    have hwhole : 2 ^ 52 * (q * 2 ^ (e + 2)) ≤ wholeQuanta p q * (q * 2 ^ quantumExp p q) :=
      Nat.mul_le_mul (by omega) hquantum
    have hfour : q * 2 ^ (e + 2) = 4 * (q * 2 ^ e) := by ring
    rw [hfour] at hwhole
    exact iff_of_false (by omega) (by omega)

/-- A quotient that is a magnitude of at most 53 bits is its own rounding. -/
theorem roundQuot_exact (hq : 0 < q) {t j : Nat} (ht : t < 2 ^ 53) : roundQuot (t * 2 ^ j * q) q = t * 2 ^ j := by
  have hnear := (roundQuot_nearest (p := t * 2 ^ j * q) hq (j := j) ht).1
  rw [Nat.cast_mul, sub_self, abs_zero, ← Nat.cast_mul] at hnear
  have heq := sub_eq_zero.mp (abs_eq_zero.mp (le_antisymm hnear (abs_nonneg _)))
  exact Nat.eq_of_mul_eq_mul_right hq (by exact_mod_cast heq)

end

/-! ### The rounded value -/

@[simp] theorem roundQuot_zero (q : Nat) : roundQuot 0 q = 0 := by
  simp [roundQuot]

theorem fl_zero (neg : Bool) (q : Nat) : fl neg 0 q = packMag neg 0 := by rw [fl, roundQuot_zero]

theorem units_fl {neg : Bool} {p q : Nat} (hf : F64.finite (fl neg p q) = true) :
    F64.units (fl neg p q) = signed neg (roundQuot p q) := units_packMag roundedQuanta_scaled hf

theorem finite_fl_iff {neg : Bool} {p q : Nat} (hq : 0 < q) :
    F64.finite (fl neg p q) = true ↔ p < (2 ^ 54 - 1) * (q * 2 ^ 2044) := by
  rw [← roundQuot_lt_iff hq, fl, roundQuot_eq, finite_packMag_scaled roundedQuanta_scaled]

/-- `r` is the binary64 value nearest to `p / q` units, ties to the even fraction (R14), if it is finite. -/
def NearestEven (r : F64) (p q : Int) : Prop :=
  F64.finite r = true → ∀ c : F64, F64.finite c = true →
    |F64.units r * q - p| ≤ |F64.units c * q - p|
    ∧ (|F64.units r * q - p| = |F64.units c * q - p| → F64.units c ≠ F64.units r → F64.frac r % 2 = 0)

/-- The distance of two numbers of one sign is that of their magnitudes. -/
theorem abs_signed_sub_same (neg : Bool) (m q p : Nat) :
    |signed neg m * q - signed neg p| = |(m * q - p : Int)| := by
  cases neg
  · simp [signed]
  · rw [← abs_neg]
    simp [signed, add_comm, sub_eq_add_neg]

/-- The distance of two numbers of different signs is the sum of their magnitudes. -/
theorem abs_signed_sub_opposite {neg neg' : Bool} (h : neg' ≠ neg) (m q p : Nat) :
    |signed neg' m * q - signed neg p| = (m * q + p : Int) := by
  have hnonneg : (0 : Int) ≤ m * q + p := by positivity
  rw [← abs_of_nonneg hnonneg]
  cases neg <;> cases neg' <;> simp [signed] at h ⊢
  rw [← abs_neg]
  congr 1
  ring

/-- `fl` rounds to nearest, ties to even: a value of the other sign is no nearer than zero. -/
theorem fl_nearestEven (neg : Bool) (p : Nat) {q : Nat} (hq : 0 < q) :
    NearestEven (fl neg p q) (signed neg p) q := by
  intro hf c _
  have hparity : F64.frac (fl neg p q) % 2 = roundedQuanta p q % 2 := frac_packMag_parity roundedQuanta_scaled hf
  rw [units_fl hf, hparity, abs_signed_sub_same, units_eq_signed c]
  by_cases hs : F64.sign c = neg
  · obtain ⟨t, j, ht, hmag⟩ := mag_eq_scaled c
    obtain ⟨hle, htie⟩ := roundQuot_nearest (p := p) hq (j := j) ht
    rw [hs, abs_signed_sub_same, hmag]
    exact ⟨hle, fun heq hne => htie heq fun hmm => hne (by rw [hmm])⟩
  · obtain ⟨hle, htie⟩ := roundQuot_nearest (p := p) hq (t := 0) (j := 0) (by norm_num)
    have hdist : |((0 * 2 ^ 0 : Nat) * q - p : Int)| = p := by simp
    have hbeyond : (0 : Int) ≤ F64.mag c * q := by positivity
    rw [hdist] at hle htie
    rw [abs_signed_sub_opposite hs]
    refine ⟨by omega, fun heq hne => htie (by omega) fun hzero => hne ?_⟩
    have hprod : (F64.mag c : Int) * q = 0 := by omega
    have hmag : F64.mag c = 0 := by
      rcases mul_eq_zero.mp hprod with h | h <;> omega
    simp [hmag, ← hzero, signed]

/-! ### The operations (R15) by sign and magnitude -/

theorem F64.one_pos : 0 < F64.one := by unfold F64.one; positivity

theorem neg_toNat_mod (a : F64) : (F64.neg a).toNat % 2 ^ 63 = a.toNat % 2 ^ 63 := by
  rw [F64.neg, BitVec.toNat_ofNat]
  omega

@[simp] theorem sign_neg (a : F64) : F64.sign (F64.neg a) = !F64.sign a := by
  have hlt := a.isLt
  rw [Bool.eq_iff_iff, F64.sign, F64.sign, F64.neg, BitVec.toNat_ofNat, Bool.not_eq_true', decide_eq_true_iff,
    decide_eq_false_iff_not]
  omega

@[simp] theorem finite_neg (a : F64) : F64.finite (F64.neg a) = F64.finite a := by
  rw [Bool.eq_iff_iff, finite_iff, finite_iff, neg_toNat_mod]

@[simp] theorem mag_neg (a : F64) : F64.mag (F64.neg a) = F64.mag a := by
  obtain ⟨t, j, h, -, ha⟩ := exists_scaled_ordinal (a.toNat % 2 ^ 63)
  rw [mag_of_ordinal h ha, mag_of_ordinal h (by rw [neg_toNat_mod, ha])]

@[simp] theorem units_neg (a : F64) : F64.units (F64.neg a) = -F64.units a := by
  rw [units_eq_signed, units_eq_signed, sign_neg, mag_neg, signed_not]

@[simp] theorem finite_nonFinite : F64.finite F64.nonFinite = false := by decide

theorem fadd_of_sum_zero {a b : F64} (ha : F64.finite a = true) (hb : F64.finite b = true)
    (h : F64.units a + F64.units b = 0) : fadd a b = packMag (F64.sign a && F64.sign b) 0 := by
  simp [fadd, ha, hb, h]

theorem fadd_of_sum_ne_zero {a b : F64} (ha : F64.finite a = true) (hb : F64.finite b = true)
    (h : F64.units a + F64.units b ≠ 0) :
    fadd a b = fl (decide (F64.units a + F64.units b < 0)) (F64.units a + F64.units b).natAbs 1 := by
  simp [fadd, ha, hb, h]

theorem fmul_of_finite {a b : F64} (ha : F64.finite a = true) (hb : F64.finite b = true) :
    fmul a b = fl (F64.sign a != F64.sign b) (F64.mag a * F64.mag b) F64.one := by
  simp [fmul, ha, hb]

theorem fdiv_of_finite {a b : F64} (ha : F64.finite a = true) (hb : F64.finite b = true) (h : F64.mag b ≠ 0) :
    fdiv a b = fl (F64.sign a != F64.sign b) (F64.mag a * F64.one) (F64.mag b) := by
  simp [fdiv, ha, hb, h]

theorem fdiv_by_zero {a b : F64} (h : F64.mag b = 0) : fdiv a b = F64.nonFinite := by
  simp [fdiv, h]

/-- An operand that is not finite makes the result the non-finite pattern. -/
theorem operations_of_not_finite {a b : F64} (h : F64.finite a = false ∨ F64.finite b = false) :
    fadd a b = F64.nonFinite ∧ fmul a b = F64.nonFinite ∧ fdiv a b = F64.nonFinite := by
  rcases h with h | h <;> simp [fadd, fmul, fdiv, h]

@[simp] theorem finite_packMag_zero (neg : Bool) : F64.finite (packMag neg 0) = true := by
  cases neg <;> decide

@[simp] theorem units_packMag_zero (neg : Bool) : F64.units (packMag neg 0) = 0 := by
  cases neg <;> decide

/-! ### Nearest, ties to even (R14, R15) -/

/-- An exact zero sum is its own value; any other sum is rounded once. -/
theorem fadd_nearestEven {a b : F64} (ha : F64.finite a = true) (hb : F64.finite b = true) :
    NearestEven (fadd a b) (F64.units a + F64.units b) 1 := by
  by_cases h : F64.units a + F64.units b = 0
  · intro _ c _
    rw [fadd_of_sum_zero ha hb h, units_packMag_zero, h]
    refine ⟨by simp, fun heq hne => absurd ?_ hne⟩
    simpa using heq.symm
  · rw [fadd_of_sum_ne_zero ha hb h]
    have hnear := fl_nearestEven (decide (F64.units a + F64.units b < 0)) (F64.units a + F64.units b).natAbs
      Nat.one_pos
    rwa [signed_natAbs_of_neg] at hnear

theorem fsub_nearestEven {a b : F64} (ha : F64.finite a = true) (hb : F64.finite b = true) :
    NearestEven (fsub a b) (F64.units a - F64.units b) 1 := by
  have hnear := fadd_nearestEven ha ((finite_neg b).trans hb)
  rwa [units_neg, ← sub_eq_add_neg] at hnear

theorem fmul_nearestEven {a b : F64} (ha : F64.finite a = true) (hb : F64.finite b = true) :
    NearestEven (fmul a b) (F64.units a * F64.units b) F64.one := by
  rw [fmul_of_finite ha hb, units_eq_signed a, units_eq_signed b, signed_mul]
  exact fl_nearestEven _ _ F64.one_pos

theorem signed_mul_natCast (neg : Bool) (m n : Nat) : signed neg m * n = signed neg (m * n) := by
  cases neg <;> simp [signed]

theorem signed_sign {neg : Bool} {n : Nat} (h : n ≠ 0) : (signed neg n).sign = signed neg 1 := by
  cases neg <;> simp [signed, Int.sign_eq_one_of_pos, Nat.pos_of_ne_zero h]

theorem fdiv_nearestEven {a b : F64} (ha : F64.finite a = true) (hb : F64.finite b = true) (h : F64.mag b ≠ 0) :
    NearestEven (fdiv a b) (F64.units a * F64.one * (F64.units b).sign) |F64.units b| := by
  have hexact : F64.units a * F64.one * (F64.units b).sign =
      signed (F64.sign a != F64.sign b) (F64.mag a * F64.one) := by
    rw [units_eq_signed b, signed_sign h, mul_right_comm, units_eq_signed a, signed_mul, Nat.mul_one,
      signed_mul_natCast]
  rw [fdiv_of_finite ha hb h, hexact, Int.abs_eq_natAbs, units_natAbs]
  exact fl_nearestEven _ _ (Nat.pos_of_ne_zero h)

/-- Settles O55: each operation is one rounding of the exact result, and the rounding is nearest-even. -/
theorem operationsRoundToNearestEven : Obligations.OperationsRoundToNearestEven := by
  unfold Obligations.OperationsRoundToNearestEven
  intro nearest a b ha hb
  refine ⟨fadd_nearestEven ha hb, fsub_nearestEven ha hb, fmul_nearestEven ha hb, fun h => ?_⟩
  exact fdiv_nearestEven ha hb ((units_eq_zero b).not.mp h)

/-! ### Overflow (R14, R15) -/

/-- R14's threshold `2 ^ 1024 - 2 ^ 970` as a multiple of half the largest quantum. -/
theorem threshold_eq (e : Nat) : (2 ^ (54 + e) - 2 ^ e : Int) = (2 ^ 54 - 1) * 2 ^ e := by
  rw [pow_add]
  ring

/-- Overflow of one rounding, in the terms of the exact result. -/
theorem finite_fl_eq_false_iff {neg : Bool} {p q : Nat} (hq : 0 < q) :
    F64.finite (fl neg p q) = false ↔ (2 ^ 2098 - 2 ^ 2044 : Int) * q ≤ p := by
  rw [← Bool.not_eq_true, finite_fl_iff hq, Nat.not_lt, threshold_eq 2044, ← Nat.cast_le (α := Int)]
  generalize 2044 = e
  push_cast
  rw [mul_assoc, mul_comm (q : Int)]

theorem threshold_pos : (0 : Int) < 2 ^ 2098 - 2 ^ 2044 :=
  sub_pos.mpr (pow_lt_pow_right₀ (by norm_num) (by norm_num))

theorem fadd_overflow_iff {a b : F64} (ha : F64.finite a = true) (hb : F64.finite b = true) :
    F64.finite (fadd a b) = false ↔ (2 ^ 2098 - 2 ^ 2044 : Int) ≤ |F64.units a + F64.units b| := by
  by_cases h : F64.units a + F64.units b = 0
  · rw [fadd_of_sum_zero ha hb h, h, finite_packMag_zero, abs_zero]
    exact iff_of_false Bool.noConfusion (not_le.mpr threshold_pos)
  · rw [fadd_of_sum_ne_zero ha hb h, finite_fl_eq_false_iff Nat.one_pos, Int.abs_eq_natAbs, Nat.cast_one, mul_one]

theorem fsub_overflow_iff {a b : F64} (ha : F64.finite a = true) (hb : F64.finite b = true) :
    F64.finite (fsub a b) = false ↔ (2 ^ 2098 - 2 ^ 2044 : Int) ≤ |F64.units a - F64.units b| := by
  rw [fsub, fadd_overflow_iff ha ((finite_neg b).trans hb), units_neg, ← sub_eq_add_neg]

theorem fmul_overflow_iff {a b : F64} (ha : F64.finite a = true) (hb : F64.finite b = true) :
    F64.finite (fmul a b) = false ↔
      (2 ^ 2098 - 2 ^ 2044 : Int) * F64.one ≤ |F64.units a * F64.units b| := by
  rw [fmul_of_finite ha hb, finite_fl_eq_false_iff F64.one_pos, Int.abs_eq_natAbs, Int.natAbs_mul, units_natAbs,
    units_natAbs]

theorem fdiv_overflow_iff {a b : F64} (ha : F64.finite a = true) (hb : F64.finite b = true) (h : F64.mag b ≠ 0) :
    F64.finite (fdiv a b) = false ↔
      (2 ^ 2098 - 2 ^ 2044 : Int) * |F64.units b| ≤ |F64.units a| * F64.one := by
  rw [fdiv_of_finite ha hb h, finite_fl_eq_false_iff (Nat.pos_of_ne_zero h), Int.abs_eq_natAbs, Int.abs_eq_natAbs,
    units_natAbs, units_natAbs, Nat.cast_mul]

/-- Settles O56: one threshold for the rounding, read in the terms of each operation. -/
theorem resultsOverflowExactlyAtTheThreshold : Obligations.ResultsOverflowExactlyAtTheThreshold := by
  unfold Obligations.ResultsOverflowExactlyAtTheThreshold
  refine ⟨fun a b ha hb => ⟨fadd_overflow_iff ha hb, fsub_overflow_iff ha hb, fmul_overflow_iff ha hb, fun h => ?_,
    fun h => ?_⟩, fun a b h => ?_⟩
  · exact fdiv_overflow_iff ha hb ((units_eq_zero b).not.mp h)
  · rw [fdiv_by_zero ((units_eq_zero b).mp h), finite_nonFinite]
  · obtain ⟨hadd, hmul, hdiv⟩ := operations_of_not_finite h
    obtain ⟨hsub, -, -⟩ := operations_of_not_finite (a := a) (b := F64.neg b) (by rwa [finite_neg])
    rw [hadd, fsub, hsub, hmul, hdiv]
    simp

/-! ### Exact zeros (R15) -/

/-- The zero of a sign, `-0` or `+0`. -/
def signedZero (neg : Bool) : F64 := if neg then 0x8000000000000000#64 else 0x0000000000000000#64

theorem packMag_zero (neg : Bool) : packMag neg 0 = signedZero neg := by cases neg <;> decide

@[simp] theorem sign_signedZero (neg : Bool) : F64.sign (signedZero neg) = neg := by cases neg <;> decide

@[simp] theorem mag_signedZero (neg : Bool) : F64.mag (signedZero neg) = 0 := by cases neg <;> decide

/-- A zero pattern is one of the two, told apart by its sign. -/
theorem eq_signedZero_iff {a : F64} (ha : F64.finite a = true) (neg : Bool) :
    a = signedZero neg ↔ F64.mag a = 0 ∧ F64.sign a = neg := by
  refine ⟨fun h => by simp [h], fun ⟨hm, hs⟩ => ?_⟩
  rw [← packMag_sign_mag ha, hm, hs, packMag_zero]

/-- Two negative addends with the sum zero are both `-0`. -/
theorem fadd_exact_zero {a b : F64} (ha : F64.finite a = true) (hb : F64.finite b = true)
    (h : F64.units a + F64.units b = 0) :
    fadd a b = signedZero (decide (a = signedZero true ∧ b = signedZero true)) := by
  rw [fadd_of_sum_zero ha hb h, packMag_zero]
  congr 1
  rw [Bool.eq_iff_iff, Bool.and_eq_true, decide_eq_true_iff, eq_signedZero_iff ha, eq_signedZero_iff hb]
  refine ⟨fun ⟨hsa, hsb⟩ => ?_, fun ⟨⟨_, hsa⟩, _, hsb⟩ => ⟨hsa, hsb⟩⟩
  have hmags : F64.mag a = 0 ∧ F64.mag b = 0 := by
    simp only [units_eq_signed, hsa, hsb, signed, if_true] at h
    omega
  exact ⟨⟨hmags.1, hsa⟩, hmags.2, hsb⟩

theorem fsub_exact_zero {a b : F64} (ha : F64.finite a = true) (hb : F64.finite b = true)
    (h : F64.units a - F64.units b = 0) :
    fsub a b = signedZero (decide (a = signedZero true ∧ b = signedZero false)) := by
  have hneg : F64.neg b = signedZero true ↔ b = signedZero false := by
    rw [eq_signedZero_iff ((finite_neg b).trans hb), eq_signedZero_iff hb, mag_neg, sign_neg, Bool.not_eq_true']
  rw [fsub, fadd_exact_zero ha ((finite_neg b).trans hb) (by rw [units_neg, ← sub_eq_add_neg, h])]
  simp only [hneg]

theorem fmul_exact_zero {a b : F64} (ha : F64.finite a = true) (hb : F64.finite b = true)
    (h : F64.mag a = 0 ∨ F64.mag b = 0) : fmul a b = signedZero (F64.sign a != F64.sign b) := by
  rw [fmul_of_finite ha hb, Nat.mul_eq_zero.mpr h, fl_zero, packMag_zero]

theorem fdiv_exact_zero {a b : F64} (ha : F64.finite a = true) (hb : F64.finite b = true)
    (hza : F64.mag a = 0) (hzb : F64.mag b ≠ 0) : fdiv a b = signedZero (F64.sign a != F64.sign b) := by
  rw [fdiv_of_finite ha hb hzb, hza, Nat.zero_mul, fl_zero, packMag_zero]

/-- Settles O58: each operation's exact zero is the zero of the sign R15 names. -/
theorem exactZerosHaveTheirSigns : Obligations.ExactZerosHaveTheirSigns := by
  unfold Obligations.ExactZerosHaveTheirSigns
  intro a b ha hb zero
  refine ⟨fadd_exact_zero ha hb, fsub_exact_zero ha hb, fun h => ?_, fun hza hzb => ?_⟩
  · exact fmul_exact_zero ha hb (h.imp (units_eq_zero a).mp (units_eq_zero b).mp)
  · exact fdiv_exact_zero ha hb ((units_eq_zero a).mp hza) ((units_eq_zero b).not.mp hzb)

/-! ### Conversions (R16) -/

/-- An integer below 2^53 is its own rounding, and far below overflow. -/
theorem u2f_exact {n : Nat} (hn : n < 2 ^ 53) :
    F64.finite (u2f n) = true ∧ F64.units (u2f n) = (n : Int) * F64.one := by
  have hbelow : n < 2 ^ 54 - 1 := by omega
  have hone : F64.one = 2 ^ 1074 := rfl
  have hle : F64.one ≤ 1 * 2 ^ 2044 := by
    rw [Nat.one_mul, hone]
    gcongr <;> norm_num
  have hfinite : F64.finite (u2f n) = true := by
    rw [u2f, finite_fl_iff Nat.one_pos]
    exact Nat.mul_lt_mul_of_lt_of_le hbelow hle (F64.one_pos.trans_le hle)
  have hround : roundQuot (n * F64.one) 1 = n * F64.one := by
    have hexact := roundQuot_exact Nat.one_pos (j := 1074) hn
    rwa [Nat.mul_one, ← hone] at hexact
  refine ⟨hfinite, ?_⟩
  rw [u2f, units_fl hfinite, hround]
  exact Nat.cast_mul _ _

/-- `f2i` truncates: its magnitude is the integer part of the magnitude. -/
theorem f2i_natAbs (a : F64) : (f2i a).natAbs = F64.mag a / F64.one := by
  rw [f2i, Int.natAbs_tdiv, units_natAbs, Int.natAbs_natCast]
  rfl

theorem f2i_nonneg {a : F64} (h : 0 ≤ F64.units a) : 0 ≤ f2i a := Int.tdiv_nonneg h (Int.natCast_nonneg _)

theorem f2i_nonpos {a : F64} (h : F64.units a ≤ 0) : f2i a ≤ 0 := by
  have hopposite : 0 ≤ f2i (F64.neg a) := f2i_nonneg (by rw [units_neg]; omega)
  rw [f2i, units_neg, Int.neg_tdiv, ← f2i] at hopposite
  omega

theorem f2i_zero {a : F64} (h : F64.units a = 0) : f2i a = 0 :=
  le_antisymm (f2i_nonpos h.le) (f2i_nonneg h.ge)

/-- Settles O24: exactness of the rounding at 53 bits, and the division with remainder of the magnitude. -/
theorem conversionsAreExactAndTruncate : Obligations.ConversionsAreExactAndTruncate := by
  unfold Obligations.ConversionsAreExactAndTruncate
  refine ⟨fun n hn => u2f_exact (by omega), fun a _ => ?_, f2i_zero (by decide), f2i_zero (by decide)⟩
  rw [f2i_natAbs, Int.abs_eq_natAbs, units_natAbs]
  refine ⟨?_, ?_, f2i_nonneg, f2i_nonpos⟩
  · exact_mod_cast Nat.div_mul_le_self (F64.mag a) F64.one
  · have hlt := Nat.lt_mul_div_succ (F64.mag a) F64.one_pos
    rw [mul_comm]
    exact_mod_cast hlt

end Sys2Proof.Machine

/-! PROOFS. Payload bytes (00_scope.md R12, 20_memory.md R43) as digits of the port word. -/

namespace Sys2Proof.Machine

/-! ### Bytes of a number -/

/-- Byte `k` of a number, byte 0 lowest. -/
def byteOf (x k : Nat) : Nat := x / 2 ^ (8 * k) % 2 ^ 8

theorem byteOf_add (x m k : Nat) : byteOf x (m + k) = byteOf (x / 2 ^ (8 * m)) k := by
  rw [byteOf, byteOf, Nat.div_div_eq_div_mul, ← Nat.pow_add, Nat.mul_add]

/-- The low `m` bytes do not read the bits above them. -/
theorem byteOf_mod (x : Nat) {m k : Nat} (h : k < m) : byteOf (x % 2 ^ (8 * m)) k = byteOf x k := by
  obtain ⟨i, rfl⟩ := Nat.exists_eq_add_of_lt h
  have hsplit : 2 ^ (8 * (k + i + 1)) = 2 ^ (8 * k) * 2 ^ (8 * i + 8) := by rw [← Nat.pow_add]; congr 1; omega
  rw [byteOf, byteOf, hsplit, Nat.mod_mul_right_div_self, Nat.mod_mod_of_dvd _ (Nat.pow_dvd_pow 2 (by omega))]

/-! ### Reading -/

theorem payloadByte_toNat (p : Payload) (k : Nat) : (payloadByte p k).toNat = byteOf p.toNat k := by
  rw [payloadByte, BitVec.extractLsb'_toNat, Nat.shiftRight_eq_div_pow, byteOf]

theorem leNat_cons (b : Byte) (bs : List Byte) : leNat (b :: bs) = b.toNat + 2 ^ 8 * leNat bs := rfl

theorem payloadBytes_drop (p : Payload) {addr : Nat} (h : addr < 8) :
    (payloadBytes p).drop addr = payloadByte p addr :: (payloadBytes p).drop (addr + 1) := by
  have hlen : addr < (payloadBytes p).length := by simpa [payloadBytes] using h
  rw [List.drop_eq_getElem_cons hlen]
  simp [payloadBytes]

/-- `n` bytes from `addr` on are one slice of the port word, little-endian (R12). -/
theorem leNat_payloadBytes (p : Payload) {addr n : Nat} (h : addr + n ≤ 8) :
    leNat (((payloadBytes p).drop addr).take n) = p.toNat / 2 ^ (8 * addr) % 2 ^ (8 * n) := by
  induction n generalizing addr with
  | zero => simp [leNat, Nat.mod_one]
  | succ n ih =>
    have hnext : p.toNat / 2 ^ (8 * (addr + 1)) = p.toNat / 2 ^ (8 * addr) / 2 ^ 8 := by
      rw [Nat.div_div_eq_div_mul, ← Nat.pow_add, Nat.mul_succ]
    have hwidth : 2 ^ (8 * (n + 1)) = 2 ^ 8 * 2 ^ (8 * n) := by rw [Nat.mul_succ, Nat.pow_add, Nat.mul_comm]
    rw [payloadBytes_drop p (by omega), List.take_succ_cons, leNat_cons, ih (by omega), payloadByte_toNat, hnext, hwidth,
      Nat.mod_mul, byteOf]

/-! ### Writing -/

/-- `x` with its `len` bits from bit `off` on replaced by those of `v`. -/
def replaceSlice (x off len v : Nat) : Nat :=
  x - x / 2 ^ off % 2 ^ len * 2 ^ off + v % 2 ^ len * 2 ^ off

/-- The replaced number from its three parts: what is above the slice, the slice, what is below it. -/
theorem replaceSlice_eq (x off len v : Nat) :
    replaceSlice x off len v = (x / 2 ^ off / 2 ^ len * 2 ^ len + v % 2 ^ len) * 2 ^ off + x % 2 ^ off := by
  have hlow := Nat.div_add_mod' x (2 ^ off)
  have hhigh := Nat.div_add_mod' (x / 2 ^ off) (2 ^ len)
  rw [← hhigh, Nat.add_mul] at hlow
  rw [replaceSlice, Nat.add_mul]
  omega

theorem replaceSlice_below (x off len v : Nat) : replaceSlice x off len v % 2 ^ off = x % 2 ^ off := by
  rw [replaceSlice_eq, Nat.mul_add_mod_self_right, Nat.mod_mod]

theorem replaceSlice_shift (x off len v : Nat) :
    replaceSlice x off len v / 2 ^ off = x / 2 ^ off / 2 ^ len * 2 ^ len + v % 2 ^ len := by
  rw [replaceSlice_eq, Nat.mul_comm _ (2 ^ off), Nat.mul_add_div (by positivity),
    Nat.div_eq_of_lt (Nat.mod_lt _ (by positivity)), Nat.add_zero]

theorem replaceSlice_slice (x off len v : Nat) : replaceSlice x off len v / 2 ^ off % 2 ^ len = v % 2 ^ len := by
  rw [replaceSlice_shift, Nat.mul_add_mod_self_right, Nat.mod_mod]

theorem replaceSlice_above (x off len v : Nat) :
    replaceSlice x off len v / 2 ^ off / 2 ^ len = x / 2 ^ off / 2 ^ len := by
  rw [replaceSlice_shift, Nat.mul_comm _ (2 ^ len), Nat.mul_add_div (by positivity),
    Nat.div_eq_of_lt (Nat.mod_lt _ (by positivity)), Nat.add_zero]

/-- Each byte after `n` bytes from `addr` on were replaced by those of `v`. -/
theorem byteOf_replaceSlice (x addr n v k : Nat) :
    byteOf (replaceSlice x (8 * addr) (8 * n) v) k =
      if addr ≤ k ∧ k < addr + n then byteOf v (k - addr) else byteOf x k := by
  rcases Nat.lt_or_ge k addr with hbelow | hfrom
  · rw [if_neg (by omega), ← byteOf_mod _ hbelow, replaceSlice_below, byteOf_mod _ hbelow]
  · obtain ⟨i, rfl⟩ := Nat.exists_eq_add_of_le hfrom
    rcases Nat.lt_or_ge i n with hin | habove
    · rw [if_pos (by omega), byteOf_add, ← byteOf_mod _ hin, replaceSlice_slice, byteOf_mod _ hin,
        Nat.add_sub_cancel_left]
    · obtain ⟨l, rfl⟩ := Nat.exists_eq_add_of_le habove
      rw [if_neg (by omega), byteOf_add, byteOf_add, replaceSlice_above, ← byteOf_add, ← byteOf_add]

theorem replaceSlice_lt {x off len v : Nat} (hx : x < 2 ^ 64) (h : off + len ≤ 64) :
    replaceSlice x off len v < 2 ^ 64 := by
  have hiff : ∀ y, y < 2 ^ 64 ↔ y / 2 ^ off / 2 ^ len < 2 ^ (64 - (off + len)) := fun y => by
    rw [Nat.div_div_eq_div_mul, Nat.div_lt_iff_lt_mul (by positivity), ← Nat.pow_add, ← Nat.pow_add,
      Nat.sub_add_cancel h]
  rw [hiff] at hx ⊢
  rwa [replaceSlice_above]

/-! ### MemRead and MemWrite (R12) -/

theorem memRead_eq (p : Payload) {addr n : Nat} (h : addr + n ≤ 8) :
    memRead p addr n = some (leNat (((payloadBytes p).drop addr).take n)) := by
  rw [memRead, if_pos h, leNat_payloadBytes p h]

theorem memWrite_eq (p : Payload) {addr n : Nat} (v : Nat) (h : addr + n ≤ 8) :
    memWrite p addr n v = some (BitVec.ofNat 64 (replaceSlice p.toNat (8 * addr) (8 * n) v)) := by
  rw [memWrite, if_pos h, replaceSlice]

theorem payloadByte_ofNat {x : Nat} (hx : x < 2 ^ 64) (k : Nat) :
    (payloadByte (BitVec.ofNat 64 x) k).toNat = byteOf x k := by
  rw [payloadByte_toNat, BitVec.toNat_ofNat, Nat.mod_eq_of_lt hx]

/-- Settles O54: the slice read is the little-endian number of its bytes, and the slice written replaces those bytes
alone. -/
theorem payloadReadsAndWrites : Obligations.PayloadReadsAndWrites := by
  unfold Obligations.PayloadReadsAndWrites
  intro p addr n v h
  refine ⟨memRead_eq p h, _, memWrite_eq p v h, fun k _ => ?_⟩
  apply BitVec.eq_of_toNat_eq
  rw [payloadByte_ofNat (replaceSlice_lt p.isLt (by omega)), byteOf_replaceSlice]
  split
  · rfl
  · exact (payloadByte_toNat p k).symm

end Sys2Proof.Machine

/-! PROOFS. One step (00_scope.md R6, 10_state.md R20): what it runs, and that what it answers is a function of the
instruction and the build-time parameters. -/

namespace Sys2Proof.Machine

/-! ### The step -/

/-- A step that decodes the next request runs the instruction at the state without the request. -/
theorem step_of_decode {s : State} {r : Request} {rest : List Request} {i : Instr} (hp : s.pending = r :: rest)
    (hd : decode r = .ok i) : step s = exec i (s.take rest) := by
  rw [step, hp]
  simp only [hd]

/-- Settles O1: `take` is the update of the queue alone. -/
theorem stepRunsTheDecodedTransaction : Obligations.StepRunsTheDecodedTransaction := by
  unfold Obligations.StepRunsTheDecodedTransaction
  intro s r rest i hp hd
  exact step_of_decode hp hd

/-! ### What a port operation answers -/

/-- At `s` the instruction completes, presents nothing, and delivers one record that shows `v`. -/
def AnswersAt (i : Instr) (v : View) (s : State) : Prop :=
  ∃ (t : State) (o : Output),
    exec i s = .next t ∧ t.pending = s.pending ∧ t.results = s.results ++ [o] ∧ o.view = v

theorem answersAt_emitTx {i : Instr} {s : State} {o : TxOut} (h : exec i s = .next (s.emitTx o)) :
    AnswersAt i (.tx o) s := ⟨_, .tx o, h, rfl, rfl, rfl⟩

theorem answersAt_emitRx {i : Instr} {s : State} {o : RxOut} (h : exec i s = .next (s.emitRx o)) :
    AnswersAt i (.rx o) s := ⟨_, .rx o, h, rfl, rfl, rfl⟩

theorem answersAt_emitQ {i : Instr} {s : State} {o : QOut} (h : exec i s = .next (s.emitQ o)) :
    AnswersAt i (Output.view (.q o)) s := ⟨_, .q o, h, rfl, rfl, rfl⟩

theorem answersAt_emitDq {i : Instr} {s : State} {o : DqOut} (h : exec i s = .next (s.emitDq o)) :
    AnswersAt i (Output.view (.dq o)) s := ⟨_, .dq o, h, rfl, rfl, rfl⟩

/-- The unspecified fields of a faulted record are not part of its view, so the free value drawn does not show. -/
theorem view_raiseQ {strict : Bool} {x : F64} {r : ScalarRange} {k : ErrKind}
    (h : quantize Numerics.reference strict x r = .error k) (code : BitVec 32) :
    Output.view (.q { code := code, fault := k == .nonFinite, oor := k == .outOfRange }) =
      .q none (k == .nonFinite) (k == .outOfRange) := by
  cases k with
  | missingCommand => exact absurd h (quantize_ne_missing _ _ _ _)
  | nonFinite => rfl
  | outOfRange => rfl

/-- QUANT answers alike from every state with the same parameters (R91, R94, R99). -/
theorem quant_answers (cfg : Config) (x : F64) {r : ScalarRange} (hr : rangeOk Numerics.reference r = true) :
    ∃ v, ∀ s : State, s.config = cfg → AnswersAt (.quant x r) v s := by
  cases hq : quantize Numerics.reference cfg.strictRange x r with
  | ok t =>
    refine ⟨Output.view (.q { code := codeOf t, fault := false, oor := false }), fun s hs => answersAt_emitQ ?_⟩
    rw [exec, execQuant, if_pos hr, hs, hq]
  | error k =>
    refine ⟨.q none (k == .nonFinite) (k == .outOfRange), fun s hs =>
      ⟨s.raiseQ k, .q _, ?_, rfl, rfl, view_raiseQ hq _⟩⟩
    rw [exec, execQuant, if_pos hr, hs, hq]

/-- DEQUANT answers alike from every state (R97, R98). -/
theorem dequant_answers (code : BitVec 32) {r : ScalarRange} (hr : rangeOk Numerics.reference r = true) :
    ∃ v, ∀ s : State, AnswersAt (.dequant code r) v s := by
  cases hd : dequantFinite (dequantSteps Numerics.reference code.toNat r) with
  | true =>
    refine ⟨Output.view (.dq { y := (dequantSteps Numerics.reference code.toNat r).y, fault := false }), fun s =>
      answersAt_emitDq ?_⟩
    rw [exec, execDequant, if_pos hr]
    exact if_pos hd
  | false =>
    refine ⟨.dq none true, fun s => ⟨s.raiseDq, .dq _, ?_, rfl, rfl, rfl⟩⟩
    rw [exec, execDequant, if_pos hr]
    exact if_neg (by rw [hd]; exact Bool.false_ne_true)

/-- Every port operation inside its contract answers alike from every state with the same parameters. -/
theorem exec_answers (cfg : Config) {i : Instr} (hport : (encode i).isSome) (hr : rangesOk i = true) :
    ∃ v, ∀ s : State, s.config = cfg → AnswersAt i v s := by
  cases i with
  | quant x r => exact quant_answers cfg x hr
  | dequant q r =>
    obtain ⟨v, hv⟩ := dequant_answers q hr
    exact ⟨v, fun s _ => hv s⟩
  | pack c => cases hport
  | unpack n p => cases hport
  | idenc op m => cases hport
  | iddec id => cases hport
  | buildDisable m c => exact ⟨_, fun s _ => answersAt_emitTx rfl⟩
  | buildEnable m c => exact ⟨_, fun s _ => answersAt_emitTx rfl⟩
  | buildControl m c =>
    exact ⟨.tx (controlRecord Numerics.reference cfg.strictRange m c), fun s hs => hs ▸ answersAt_emitTx rfl⟩
  | buildUnknown op m c => exact ⟨_, fun s _ => answersAt_emitTx rfl⟩
  | parseDisable rx => exact ⟨_, fun s _ => answersAt_emitRx rfl⟩
  | parseEnable rx => exact ⟨_, fun s _ => answersAt_emitRx rfl⟩
  | parseControl rx =>
    exact ⟨.rx (parsedRecord Numerics.reference cfg.rxVelShift rx), fun s hs => hs ▸ answersAt_emitRx rfl⟩
  | parseUnknown rx => exact ⟨_, fun s _ => answersAt_emitRx rfl⟩

/-- The decoder answers port operations only (R73). -/
theorem encode_isSome_of_decode {r : Request} {i : Instr} (h : decode r = .ok i) : (encode i).isSome := by
  obtain ⟨-, ⟨-, op, m, c, rfl⟩ | ⟨-, rx, rfl⟩ | ⟨-, x, rg, rfl⟩ | ⟨-, q, rg, rfl⟩⟩ := decode_ok_cases r i h
  · rcases selectBuild_cases op m c with ⟨-, h⟩ | ⟨-, h⟩ | ⟨-, h⟩ | ⟨-, -, -, h⟩ <;> rw [h] <;> rfl
  · rcases selectParse_cases rx with ⟨-, h⟩ | ⟨-, h⟩ | ⟨-, h⟩ | ⟨-, -, -, h⟩ <;> rw [h] <;> rfl
  · rfl
  · rfl

theorem accepted_iff (r : Request) : accepted r = true ↔ ∃ i, decode r = .ok i ∧ rangesOk i = true := by
  unfold accepted
  cases decode r <;> simp

/-- An accepted request is answered alike from every state with the same parameters in which it is next. -/
theorem step_answers (cfg : Config) {r : Request} (h : accepted r = true) :
    ∃ v, ∀ (s : State) (rest : List Request), s.config = cfg → s.pending = r :: rest →
      ∃ (t : State) (o : Output), step s = .next t ∧ t.pending = rest ∧ t.results = s.results ++ [o] ∧ o.view = v := by
  obtain ⟨i, hd, hr⟩ := (accepted_iff r).mp h
  obtain ⟨v, hv⟩ := exec_answers cfg (encode_isSome_of_decode hd) hr
  refine ⟨v, fun s rest hs hp => ?_⟩
  obtain ⟨t, o, hexec, hpending, hresults, hview⟩ := hv (s.take rest) hs
  exact ⟨t, o, (step_of_decode hp hd).trans hexec, hpending, hresults, hview⟩

/-- Settles O50: both steps show the one view of the request under the shared parameters. -/
theorem outputsDependOnInputsOnly : Obligations.OutputsDependOnInputsOnly := by
  unfold Obligations.OutputsDependOnInputsOnly
  intro s s' r rest rest' hp hp' hc hacc
  obtain ⟨v, hv⟩ := step_answers s.config hacc
  obtain ⟨t, o, hstep, hpending, hresults, hview⟩ := hv s rest rfl hp
  obtain ⟨t', o', hstep', hpending', hresults', hview'⟩ := hv s' rest' hc.symm hp'
  exact ⟨t, t', o, o', hstep, hstep', hpending, hpending', hresults, hresults', hview.trans hview'.symm⟩

/-! ### The protocol ranges (R7) -/

/-- What the nine ranges compute at their ends (R94, R97, R99). -/
theorem protocolRanges_compute :
    ∀ r ∈ [txPos, txVel, txTrq, txKp, txKd, rxPos, rxVel, rxTrq, rxTemp],
      quantFinite r.max (quantSteps Numerics.reference r.max r) = true ∧ outside Numerics.reference r.max r = false
      ∧ f2i (quantSteps Numerics.reference r.max r).v = 2 ^ r.bits.toNat - 1
      ∧ (dequantSteps Numerics.reference 0 r).y = r.min
      ∧ (dequantSteps Numerics.reference (2 ^ r.bits.toNat - 1) r).y = r.max := by
  decide +kernel

/-- A finite quotient of a number in range is QUANT's answer in both variants. -/
theorem quantize_of_not_outside {num : Numerics} {x : F64} {r : ScalarRange} (strict : Bool)
    (hf : quantFinite x (quantSteps num x r) = true) (ho : outside num x r = false) :
    quantize num strict x r = .ok (num.f2i (quantSteps num x r).v) := by
  rcases quantize_cases num strict x r with ⟨-, -, h⟩ | ⟨-, hout, -⟩ | ⟨hnot, -⟩
  · exact h
  · simp [ho] at hout
  · simp [hf] at hnot

/-- Settles O28: the ends evaluate, and QUANT answers the quotient it evaluates to. -/
theorem protocolRangesReachBothEnds : Obligations.ProtocolRangesReachBothEnds := by
  unfold Obligations.ProtocolRangesReachBothEnds
  intro r hr
  obtain ⟨hf, ho, hv, hmin, hmax⟩ := protocolRanges_compute r hr
  have hquant : ∀ strict, quantize Numerics.reference strict r.max r = .ok (2 ^ r.bits.toNat - 1) := fun strict =>
    (quantize_of_not_outside strict hf ho).trans (congrArg Except.ok hv)
  exact ⟨hquant false, hquant true, hmin, hmax⟩

end Sys2Proof.Machine

/-! PROOFS. The state (10_state.md): what it is after reset (R33), that no transaction configures anything (R24), and that
a transaction touches its own port only (R32). The frame facts are read off the cases of `exec_next_cases` and
`step_next_cases`. -/

namespace Sys2Proof.Machine

/-! ### The state after reset (R33) -/

/-- Settles O46: with no record delivered, each port's lines are its reset lines. -/
theorem resetMeetsTheInvariant : Obligations.ResetMeetsTheInvariant := by
  unfold Obligations.ResetMeetsTheInvariant
  exact { lawful := fun _ ho => absurd ho List.not_mem_nil, tx := rfl, rx := rfl, q := rfl, dq := rfl }

/-- Settles O47: each part is a field of the reset state. -/
theorem resetPresentsNoResult : Obligations.ResetPresentsNoResult := by
  unfold Obligations.ResetPresentsNoResult
  exact ⟨rfl, rfl, rfl, rfl, rfl, rfl, rfl⟩

/-! ### The build-time parameters (R24) -/

/-- An instruction delivers a record, draws a free value or writes lines; none of these writes a parameter. -/
theorem exec_config {i : Instr} {s t : State} (h : exec i s = .next t) : t.config = s.config := by
  rcases exec_next_cases i s t h with ⟨o, -, -, rfl⟩ | ⟨o, -, -, rfl⟩ | ⟨o, -, -, rfl | rfl⟩ | ⟨o, -, -, rfl | rfl⟩ |
    ⟨o, -, -, rfl⟩ | ⟨o, -, -, rfl⟩ <;> rfl

/-- A step idles, or runs one instruction once the request is taken. -/
theorem step_config {s t : State} (h : step s = .next t) : t.config = s.config := by
  rcases step_next_cases s t h with ⟨-, rfl⟩ | ⟨r, rest, i, -, -, hexec⟩
  · rfl
  · exact (exec_config hexec).trans (take_config s rest)

/-- Settles O48: the parameters are a frame of `exec` and of `step`. -/
theorem nothingIsConfiguredAtRunTime : Obligations.NothingIsConfiguredAtRunTime := by
  unfold Obligations.NothingIsConfiguredAtRunTime
  exact ⟨fun _ _ _ => exec_config, fun _ _ => step_config⟩

/-! ### One port at a time (R32, R49) -/

/-- Settles O49: in each case of `exec_next_cases` the port of the instruction is known, and the update writes the lines
of that port, adds at most one record (none for a part run alone), and draws a free value on Q and DQ only. -/
theorem portsShareNothing : Obligations.PortsShareNothing := by
  unfold Obligations.PortsShareNothing
  intro i s t h
  rcases exec_next_cases i s t h with ⟨o, hport, -, rfl⟩ | ⟨o, hport, -, rfl⟩ | ⟨o, hport, -, rfl | rfl⟩ |
    ⟨o, hport, -, rfl | rfl⟩ | ⟨o, hport, -, rfl⟩ | ⟨o, hport, -, rfl⟩ <;> simp [hport]

end Sys2Proof.Machine

/-! PROOFS. The receive extraction (41_frame_packer.md R116, R117) as slices of the port word (20_memory.md R53): a
payload byte is a slice, a mask cuts a slice of it, and adjacent slices that are shifted and ORed are one slice. -/

namespace Sys2Proof.Machine

/-! ### Slices of a word -/

theorem slice_of_slice {w : Nat} (x : BitVec w) {off len start n : Nat} (h : start + n ≤ len) :
    (x.extractLsb' off len).extractLsb' start n = x.extractLsb' (off + start) n := by
  ext i hi
  have hin : start + i < len := by omega
  simp [hin, Nat.add_assoc]

/-- Two adjacent slices, the upper one shifted by the length of the lower one, are one slice. -/
theorem slice_or_shiftLeft_slice {w : Nat} (x : BitVec w) (width off len len' : Nat) :
    (x.extractLsb' off len).setWidth width ||| (x.extractLsb' (off + len) len').setWidth width <<< len =
      (x.extractLsb' off (len' + len)).setWidth width := by
  rw [BitVec.or_comm, ← BitVec.setWidth_append_eq_shiftLeft_setWidth_or,
    BitVec.extractLsb'_append_extractLsb'_eq_extractLsb' rfl]

/-! ### The nibbles of a byte (R116) -/

theorem zext_and_lowNibble (b : Byte) : (b &&& 0x0F#8).setWidth 20 = (b.extractLsb' 0 4).setWidth 20 := by
  have hmask : (b &&& 0x0F#8).toNat = b.toNat % 2 ^ 4 := Nat.and_two_pow_sub_one_eq_mod b.toNat 4
  have hslice := BitVec.extractLsb'_toNat 0 4 b
  bv_omega

/-- The mask for the high nibble clears the low one, as shifting it out and back does. -/
theorem zext_and_highNibble (b : Byte) : (b &&& 0xF0#8).setWidth 20 = (b.extractLsb' 4 4).setWidth 20 <<< 4 := by
  have hmask : b >>> 4 <<< 4 = b &&& 0xF0#8 := BitVec.shiftLeft_ushiftRight
  have hslice := BitVec.extractLsb'_toNat 4 4 b
  rw [← hmask]
  bv_omega

/-- Four bits that were moved up in twenty come back whole. -/
theorem zext_nibble_shiftLeft_ushiftRight (x : BitVec 4) : x.setWidth 20 <<< 4 >>> 4 = x.setWidth 20 := by bv_omega

/-! ### The raw fields (R116, R117) -/

theorem positionRaw_eq (p : Payload) : positionRaw p = p.extractLsb' 0 20 := by
  rw [positionRaw, zext_and_lowNibble, payloadByte, payloadByte, payloadByte, slice_of_slice p (by decide)]
  calc
    _ = (p.extractLsb' 0 16).setWidth 20 ||| (p.extractLsb' 16 4).setWidth 20 <<< 16 :=
      congrArg (· ||| _) (slice_or_shiftLeft_slice p 20 0 8 8)
    _ = (p.extractLsb' 0 20).setWidth 20 := slice_or_shiftLeft_slice p 20 0 16 4
    _ = p.extractLsb' 0 20 := BitVec.setWidth_eq _

theorem torqueRaw_eq (p : Payload) : torqueRaw p = p.extractLsb' 40 16 :=
  (slice_or_shiftLeft_slice p 16 40 8 8).trans (BitVec.setWidth_eq _)

theorem faultRaw_eq (p : Payload) : faultRaw p = p.getLsbD 56 := by
  rw [faultRaw, payloadByte, BitVec.and_one_eq_setWidth_ofBool_getLsbD, BitVec.getLsbD_extractLsb']
  cases p.getLsbD 56 <;> rfl

theorem tempRaw_eq (p : Payload) : tempRaw p = p.extractLsb' 57 7 := by
  have hmask : payloadByte p 7 &&& 0xFF#8 = payloadByte p 7 := BitVec.and_allOnes
  rw [tempRaw, hmask, BitVec.setWidth_ushiftRight_eq_extractLsb, payloadByte, slice_of_slice p (by decide)]

/-- Bytes 3 and 4 are one slice, moved up by a nibble. -/
theorem velocityBytes_eq (p : Payload) :
    (payloadByte p 3).setWidth 20 <<< 4 ||| (payloadByte p 4).setWidth 20 <<< 12 =
      (p.extractLsb' 24 16).setWidth 20 <<< 4 := by
  have hslice : (payloadByte p 3).setWidth 20 ||| (payloadByte p 4).setWidth 20 <<< 8 =
      (p.extractLsb' 24 16).setWidth 20 := slice_or_shiftLeft_slice p 20 24 8 8
  rw [← hslice, BitVec.shiftLeft_or_distrib, ← BitVec.shiftLeft_add]

/-- The high nibble of byte 2 is moved down by the shift of R9; bytes 3 and 4 stay. -/
theorem velocityRaw_eq (vs : RxVelShift) (p : Payload) :
    velocityRaw vs p =
      (p.extractLsb' 20 4).setWidth 20 <<< 4 >>> velShift vs ||| (p.extractLsb' 24 16).setWidth 20 <<< 4 := by
  rw [velocityRaw, BitVec.or_assoc, velocityBytes_eq, zext_and_highNibble, payloadByte, slice_of_slice p (by decide)]

/-- At shift 4 the nibble lies right below bytes 3 and 4. -/
theorem velocityRaw_four (p : Payload) : velocityRaw .four p = p.extractLsb' 20 20 := by
  rw [velocityRaw_eq, velShift, zext_nibble_shiftLeft_ushiftRight]
  exact (slice_or_shiftLeft_slice p 20 20 4 16).trans (BitVec.setWidth_eq _)

/-- At shift 0 the nibble lies over the low nibble of byte 3. -/
theorem velocityRaw_zero (p : Payload) :
    velocityRaw .zero p = (p.extractLsb' 20 4).setWidth 20 <<< 4 ||| (p.extractLsb' 24 16).setWidth 20 <<< 4 :=
  velocityRaw_eq .zero p

/-- Settles O34: each extraction is the slice its field's lemma names. -/
theorem rawFieldsAreWordSlices : Obligations.RawFieldsAreWordSlices := by
  unfold Obligations.RawFieldsAreWordSlices
  exact fun p => ⟨positionRaw_eq p, torqueRaw_eq p, faultRaw_eq p, tempRaw_eq p, velocityRaw_four p, velocityRaw_zero p⟩

end Sys2Proof.Machine

/-! PROOFS. Whole runs (70_reset_and_hazards.md R202): each presented transaction is answered as it is answered alone,
so the order in which the transactions stand does not show in the pairs of request and answer (20_memory.md R49). -/

namespace Sys2Proof.Machine

/-- An accepted request that is next is answered as a machine that has done nothing before answers it (R32). -/
theorem step_answers_alone {s : State} {r : Request} {rest : List Request} (h : accepted r = true)
    (hp : s.pending = r :: rest) :
    ∃ (t : State) (o : Output), step s = .next t ∧ t.pending = rest ∧ t.config = s.config
      ∧ t.results = s.results ++ [o] ∧ some o.view = alone s.config r := by
  obtain ⟨v, hv⟩ := step_answers s.config h
  obtain ⟨t, o, hstep, hpending, hresults, hview⟩ := hv s rest rfl hp
  obtain ⟨t', o', hstep', -, hresults', hview'⟩ :=
    hv { State.reset with config := s.config, pending := [r] } [] rfl rfl
  have halone : alone s.config r = some v := by simp [alone, hstep', hresults', hview']
  exact ⟨t, o, hstep, hpending, step_config hstep, hresults, by rw [halone, hview]⟩

/-- A run goes on from the state its first step leads to. -/
theorem run_succ_of_step {M : Host.Core} {s t : M.State} (k : Nat) (h : M.step s = .next t) :
    M.run (k + 1) s = M.run k t := by
  rw [Host.Core.run, h]

/-- A run over accepted requests takes them all and delivers, in their order, what each answers alone. -/
theorem run_answers_alone (rs : List Request) {s : State} (hp : s.pending = rs) (hacc : ∀ r ∈ rs, accepted r = true) :
    ∃ (t : State) (outs : List Output),
      Host.Core.run core rs.length s = .next t ∧ t.pending = [] ∧ t.config = s.config
      ∧ t.results = s.results ++ outs ∧ outs.map (fun o => some o.view) = rs.map (alone s.config) := by
  induction rs generalizing s with
  | nil => exact ⟨s, [], rfl, hp, rfl, (List.append_nil _).symm, rfl⟩
  | cons r rest ih =>
    obtain ⟨hr, hrest⟩ := List.forall_mem_cons.mp hacc
    obtain ⟨t, o, hstep, hpending, hconfig, hresults, hview⟩ := step_answers_alone hr hp
    obtain ⟨u, outs, hrun, hdone, hconfig', hresults', hviews⟩ := ih hpending hrest
    refine ⟨u, o :: outs, (run_succ_of_step (M := core) rest.length hstep).trans hrun, hdone,
      hconfig'.trans hconfig, ?_, ?_⟩
    · rw [hresults', hresults, List.append_assoc, List.singleton_append]
    · rw [List.map_cons, List.map_cons, hview, hviews, hconfig]

/-- The pairs of request and answer of a run are a function of each request and the parameters. -/
theorem run_pairs {s : State} (hacc : ∀ r ∈ s.pending, accepted r = true) :
    ∃ t : State, Host.Core.run core s.pending.length s = .next t
      ∧ (s.pending.zip ((t.results.drop s.results.length).map Output.view)).map (Prod.map id some) =
        s.pending.map fun r => (r, alone s.config r) := by
  obtain ⟨t, outs, hrun, -, -, hresults, hviews⟩ := run_answers_alone s.pending rfl hacc
  have hsome : (outs.map Output.view).map some = s.pending.map (alone s.config) := List.map_map.trans hviews
  refine ⟨t, hrun, ?_⟩
  rw [hresults, List.drop_left, ← List.zip_map_right, hsome, List.map_prod_left_eq_zip]

/-- Settles O52: both lists of pairs are the image of the requests under one function, by `run_pairs`. -/
theorem permutedRunsAnswerAlike : Obligations.PermutedRunsAnswerAlike := by
  unfold Obligations.PermutedRunsAnswerAlike
  intro s s' hperm hconfig hacc
  obtain ⟨t, hrun, hpairs⟩ := run_pairs hacc
  obtain ⟨t', hrun', hpairs'⟩ := run_pairs fun r hr => hacc r (hperm.mem_iff.mpr hr)
  refine ⟨t, t', hrun, hrun', ?_⟩
  rw [← List.map_perm_map_iff (Function.injective_id.prodMap (Option.some_injective View)), hpairs, hpairs', hconfig]
  exact hperm.map _

end Sys2Proof.Machine

/-! PROOFS. The transport boundary (20_memory.md R52, 70_reset_and_hazards.md R199): the bytes that go out are the first
bytes of the payload, and the payload presented for a frame is the little-endian number of the bytes received. -/

namespace Sys2Proof.Machine

/-! ### Sending -/

theorem wireBytes_length {c : SendCall} (h : c.dlc.toNat ≤ 8) : c.wireBytes.length = c.dlc.toNat := by
  rw [SendCall.wireBytes, List.length_take]
  exact Nat.min_eq_left (by simpa [payloadBytes] using h)

theorem wireBytes_getElem? {c : SendCall} (h : c.dlc.toNat ≤ 8) {k : Nat} (hk : k < c.dlc.toNat) :
    c.wireBytes[k]? = some (payloadByte c.payload k) := by
  rw [SendCall.wireBytes, List.getElem?_take_of_lt hk, payloadBytes_getElem? _ _ (Nat.lt_of_lt_of_le hk h)]

/-! ### Receiving -/

theorem leNat_lt (bs : List Byte) : leNat bs < 256 ^ bs.length := by
  rw [← leBytes_leNat bs, leNat_leBytes, leBytes_length]
  exact Nat.mod_lt _ (by positivity)

/-- The bytes of a little-endian number are the bytes it was read from (R12, R43). -/
theorem byteOf_leNat {bs : List Byte} {k : Nat} (h : k < bs.length) : byteOf (leNat bs) k = bs[k].toNat := by
  induction bs generalizing k with
  | nil => exact absurd h (Nat.not_lt_zero k)
  | cons b bs ih =>
    have hb := b.isLt
    cases k with
    | zero =>
      have hlow : leNat (b :: bs) % 2 ^ 8 = b.toNat := by rw [leNat_cons]; omega
      rwa [byteOf, Nat.mul_zero, Nat.pow_zero, Nat.div_one]
    | succ k =>
      have hk : k < bs.length := Nat.lt_of_succ_lt_succ h
      have hhigh : leNat (b :: bs) / 2 ^ (8 * 1) = leNat bs := by rw [leNat_cons]; omega
      calc byteOf (leNat (b :: bs)) (k + 1) = byteOf (leNat bs) k := by rw [Nat.add_comm, byteOf_add, hhigh]
        _ = bs[k].toNat := ih hk

theorem receivedFrame_len (id : BitVec 32) (bytes : List Byte) :
    (receivedFrame id bytes).len.toNat = min bytes.length 15 :=
  Nat.mod_eq_of_lt (Nat.lt_succ_of_le (Nat.min_le_right bytes.length 15))

theorem payloadByte_receivedFrame (id : BitVec 32) (bytes : List Byte) {k : Nat} (h8 : k < 8) (h : k < bytes.length) :
    payloadByte (receivedFrame id bytes).data k = bytes[k] := by
  have hlt : leNat (bytes.take 8) < 2 ^ 64 := by
    calc leNat (bytes.take 8) < 256 ^ (bytes.take 8).length := leNat_lt _
      _ ≤ 256 ^ 8 := Nat.pow_le_pow_right (by decide) (List.length_take_le 8 bytes)
      _ = 2 ^ 64 := by decide
  have hk : k < (bytes.take 8).length := by rw [List.length_take]; exact Nat.lt_min.mpr ⟨h8, h⟩
  apply BitVec.eq_of_toNat_eq
  rw [receivedFrame, payloadByte_ofNat hlt, byteOf_leNat hk, List.getElem_take]

/-- Settles O53: the calls are read off the definitions, the bytes off the lemmas above. -/
theorem transportBoundary : Obligations.TransportBoundary := by
  unfold Obligations.TransportBoundary
  refine ⟨?sent, ?notSent, ?bytesOut, ?presented, ?frame, ?absent⟩
  case sent => exact fun o h => if_pos h
  case notSent => exact fun o h => if_neg (Bool.eq_false_iff.mp h)
  case bytesOut => exact fun c h => ⟨wireBytes_length h, fun k hk => wireBytes_getElem? h hk⟩
  case presented => exact fun _ _ _ => rfl
  case frame =>
    exact fun id bytes => ⟨rfl, receivedFrame_len id bytes, fun _ h8 hk => payloadByte_receivedFrame id bytes h8 hk⟩
  case absent => exact fun _ => rfl

end Sys2Proof.Machine

/-! PROOFS. Decoding and encoding (30_encoding.md R60, R61, R68, R70, R74): the fields of an input record are read back
from the bytes they were written to, the bytes of an accepted record are those of its fields, and the operation selected
is the one whose opcode the record holds. -/

namespace Sys2Proof

/-! ### The bytes of a field -/

/-- The `n` bytes from byte `off` on, which `fieldAt` reads. -/
def bytesAt (bytes : List Byte) (off n : Nat) : List Byte := (bytes.drop off).take n

theorem fieldAt_eq_leNat_bytesAt (bs : List Byte) (off n : Nat) : fieldAt bs off n = leNat (bytesAt bs off n) := rfl

theorem bytesAt_length {bs : List Byte} {off n : Nat} (h : off + n ≤ bs.length) : (bytesAt bs off n).length = n := by
  rw [bytesAt, List.length_take, List.length_drop]
  omega

theorem bytesAt_append {bs : List Byte} {off off' n m : Nat} (h : off' = off + n) :
    bytesAt bs off n ++ bytesAt bs off' m = bytesAt bs off (n + m) := by
  rw [h, bytesAt, bytesAt, bytesAt, List.take_add, List.drop_drop]

theorem bytesAt_all {bs : List Byte} {n : Nat} (h : bs.length = n) : bytesAt bs 0 n = bs := by
  rw [bytesAt, List.drop_zero, ← h, List.take_length]

/-- Writing a field back gives the bytes it was read from. -/
theorem leBytes_fieldAt {bs : List Byte} {off n : Nat} (h : off + n ≤ bs.length) :
    leBytes n (fieldAt bs off n) = bytesAt bs off n := by
  have hwrite := leBytes_leNat (bytesAt bs off n)
  rwa [bytesAt_length h, ← fieldAt_eq_leNat_bytesAt] at hwrite

theorem fieldAt_lt {bs : List Byte} {off n : Nat} (h : off + n ≤ bs.length) : fieldAt bs off n < 256 ^ n := by
  have hlt := Machine.leNat_lt (bytesAt bs off n)
  rwa [bytesAt_length h, ← fieldAt_eq_leNat_bytesAt] at hlt

/-- A field that fills the rest of the record is read back. -/
theorem fieldAt_leBytes_last {n v : Nat} (h : v < 256 ^ n) : fieldAt (leBytes n v) 0 n = v := by
  simpa using fieldAt_leBytes n v [] h

/-! ### Real fields -/

theorem realAt_append_right {xs ys : List Byte} {off : Nat} (h : xs.length ≤ off) :
    realAt (xs ++ ys) off = realAt ys (off - xs.length) :=
  congrArg (BitVec.ofNat 64) (fieldAt_append_right xs ys off 8 h)

theorem realAt_realBytes_last (x : F64) : realAt (realBytes x) 0 = x := by simpa using realAt_realBytes x []

theorem realBytes_realAt {bs : List Byte} {off : Nat} (h : off + 8 ≤ bs.length) :
    realBytes (realAt bs off) = bytesAt bs off 8 := by
  have hval : (realAt bs off).toNat = fieldAt bs off 8 := Nat.mod_eq_of_lt (fieldAt_lt h)
  rw [realBytes, hval, leBytes_fieldAt h]

/-! ### The range operand (R30, R31) -/

/-- The range whose 17 bytes start at byte `off`. -/
def rangeAt (bytes : List Byte) (off : Nat) : ScalarRange :=
  { min := realAt bytes off, max := realAt bytes (off + 8), bits := BitVec.ofNat 6 (fieldAt bytes (off + 16) 1) }

/-- The `bits` field, the last byte of a range, is read back behind the fields before it. -/
theorem fieldAt_bits_rangeBytes {xs : List Byte} {off : Nat} (h : off = xs.length + 16) (r : ScalarRange) :
    fieldAt (xs ++ rangeBytes r) off 1 = r.bits.toNat := by
  have hbits : r.bits.toNat < 256 ^ 1 := by omega
  simp [h, rangeBytes, fieldAt_append_right, fieldAt_leBytes_last hbits]

theorem rangeAt_rangeBytes {xs : List Byte} {off : Nat} (h : off = xs.length) (r : ScalarRange) :
    rangeAt (xs ++ rangeBytes r) off = r := by
  subst h
  rw [rangeAt, fieldAt_bits_rangeBytes rfl, BitVec.ofNat_toNat, BitVec.setWidth_eq]
  simp [rangeBytes, realAt_append_right, realAt_realBytes]

theorem rangeBytes_rangeAt {bs : List Byte} {off : Nat} (h : off + 17 ≤ bs.length)
    (hbits : fieldAt bs (off + 16) 1 < 64) : rangeBytes (rangeAt bs off) = bytesAt bs off 17 := by
  have hbits' : (BitVec.ofNat 6 (fieldAt bs (off + 16) 1)).toNat = fieldAt bs (off + 16) 1 := Nat.mod_eq_of_lt hbits
  simp (disch := omega) only [rangeBytes, rangeAt, hbits', realBytes_realAt, leBytes_fieldAt, bytesAt_append]

/-! ### The TX record (R26, R60) -/

/-- `id[10:5]` of the FID-TX word. -/
def txOpcode (bytes : List Byte) : BitVec 6 := BitVec.ofNat 6 (fieldAt bytes 0 2 / 32)

/-- `id[4:0]` of the FID-TX word. -/
def txMotor (bytes : List Byte) : BitVec 5 := BitVec.ofNat 5 (fieldAt bytes 0 2)

/-- The command part of a TX record. -/
def txCommand (bytes : List Byte) : CommandIn :=
  { valid := fieldAt bytes 2 1 == 1
    cmd :=
      { pos := realAt bytes 3, vel := realAt bytes 11, trq := realAt bytes 19
        kp := realAt bytes 27, kd := realAt bytes 35 } }

theorem decode_tx {bs : List Byte} (h : bs.length = recordLength .tx) :
    decode { port := .tx, bytes := bs } = decodeTx bs :=
  if_pos h

theorem decodeTx_eq_ok_iff {bs : List Byte} {i : Instr} :
    decodeTx bs = .ok i ↔
      fieldAt bs 0 2 < 2 ^ 11 ∧ fieldAt bs 2 1 < 2 ∧ selectBuild (txOpcode bs) (txMotor bs) (txCommand bs) = i := by
  dsimp only [decodeTx]
  split_ifs with hid hvalid
  · exact iff_of_false nofun fun h => absurd h.1 (Nat.not_lt.mpr hid)
  · exact iff_of_false nofun fun h => absurd h.2.1 (Nat.not_lt.mpr hvalid)
  · exact ⟨fun h => ⟨Nat.lt_of_not_le hid, Nat.lt_of_not_le hvalid, Except.ok.inj h⟩, fun h => congrArg _ h.2.2⟩

theorem fieldAt_id_encodeTx (op : BitVec 6) (m : BitVec 5) (c : CommandIn) :
    fieldAt (encodeTx op m c).bytes 0 2 = op.toNat * 32 + m.toNat := by
  rw [encodeTx, List.append_assoc, fieldAt_leBytes]
  omega

theorem fieldAt_valid_encodeTx (op : BitVec 6) (m : BitVec 5) (c : CommandIn) :
    fieldAt (encodeTx op m c).bytes 2 1 = c.valid.toNat := by
  have hvalid := c.valid.toNat_lt
  rw [encodeTx, List.append_assoc, fieldAt_append_right _ _ _ _ (by simp), leBytes_length, fieldAt_leBytes]
  omega

theorem txOpcode_encodeTx (op : BitVec 6) (m : BitVec 5) (c : CommandIn) : txOpcode (encodeTx op m c).bytes = op := by
  rw [txOpcode, fieldAt_id_encodeTx]
  bv_omega

theorem txMotor_encodeTx (op : BitVec 6) (m : BitVec 5) (c : CommandIn) : txMotor (encodeTx op m c).bytes = m := by
  rw [txMotor, fieldAt_id_encodeTx]
  bv_omega

theorem txCommand_encodeTx (op : BitVec 6) (m : BitVec 5) (c : CommandIn) :
    txCommand (encodeTx op m c).bytes = c := by
  have hvalid : (c.valid.toNat == 1) = c.valid := by cases c.valid <;> rfl
  rw [txCommand, fieldAt_valid_encodeTx, hvalid]
  simp [encodeTx, realAt_append_right, realAt_realBytes, realAt_realBytes_last]

/-- The TX port decodes every record to the operation its opcode selects (R70, R140). -/
theorem decode_encodeTx (op : BitVec 6) (m : BitVec 5) (c : CommandIn) :
    decode (encodeTx op m c) = .ok (selectBuild op m c) := by
  refine (decode_tx (Laws.encodeTx_length op m c)).trans (decodeTx_eq_ok_iff.mpr ⟨?_, ?_, ?_⟩)
  · rw [fieldAt_id_encodeTx]
    omega
  · rw [fieldAt_valid_encodeTx]
    exact c.valid.toNat_lt
  · rw [txOpcode_encodeTx, txMotor_encodeTx, txCommand_encodeTx]

theorem encodeTx_of_fields {bs : List Byte} (hlen : bs.length = 43) (hid : fieldAt bs 0 2 < 2 ^ 11)
    (hvalid : fieldAt bs 2 1 < 2) :
    encodeTx (txOpcode bs) (txMotor bs) (txCommand bs) = { port := .tx, bytes := bs } := by
  have hid' : (txOpcode bs).toNat * 32 + (txMotor bs).toNat = fieldAt bs 0 2 := by
    simp only [txOpcode, txMotor, BitVec.toNat_ofNat]
    omega
  have hvalid' : (txCommand bs).valid.toNat = fieldAt bs 2 1 := by
    simp only [txCommand]
    interval_cases fieldAt bs 2 1 <;> rfl
  rw [encodeTx, hid', hvalid']
  simp (disch := omega) only [txCommand, realBytes_realAt, leBytes_fieldAt, bytesAt_append, bytesAt_all]

/-! ### The RX record (R28) -/

/-- The three fields of an RX record. -/
def rxRecord (bytes : List Byte) : RxIn :=
  { id := BitVec.ofNat 32 (fieldAt bytes 0 4), len := BitVec.ofNat 4 (fieldAt bytes 4 1)
    data := BitVec.ofNat 64 (fieldAt bytes 5 8) }

theorem decode_rx {bs : List Byte} (h : bs.length = recordLength .rx) :
    decode { port := .rx, bytes := bs } = decodeRx bs :=
  if_pos h

theorem decodeRx_eq_ok_iff {bs : List Byte} {i : Instr} :
    decodeRx bs = .ok i ↔ fieldAt bs 4 1 < 16 ∧ selectParse (rxRecord bs) = i := by
  dsimp only [decodeRx]
  split_ifs with hlen
  · exact iff_of_false nofun fun h => absurd h.1 (Nat.not_lt.mpr hlen)
  · exact ⟨fun h => ⟨Nat.lt_of_not_le hlen, Except.ok.inj h⟩, fun h => congrArg _ h.2⟩

theorem fieldAt_len_encodeRx (rx : RxIn) : fieldAt (encodeRx rx).bytes 4 1 = rx.len.toNat := by
  rw [encodeRx, List.append_assoc, fieldAt_append_right _ _ _ _ (by simp), leBytes_length, fieldAt_leBytes]
  omega

theorem rxRecord_encodeRx (rx : RxIn) : rxRecord (encodeRx rx).bytes = rx := by
  have hid : rx.id.toNat < 256 ^ 4 := rx.id.isLt
  have hdata : rx.data.toNat < 256 ^ 8 := rx.data.isLt
  rw [rxRecord, fieldAt_len_encodeRx]
  simp [encodeRx, fieldAt_append_right, fieldAt_leBytes _ _ _ hid, fieldAt_leBytes_last hdata]

/-- The RX port decodes every record to the operation its identifier selects (R70, R146). -/
theorem decode_encodeRx (rx : RxIn) : decode (encodeRx rx) = .ok (selectParse rx) := by
  refine (decode_rx (Laws.encodeRx_length rx)).trans (decodeRx_eq_ok_iff.mpr ⟨?_, ?_⟩)
  · rw [fieldAt_len_encodeRx]
    exact rx.len.isLt
  · rw [rxRecord_encodeRx]

theorem encodeRx_of_fields {bs : List Byte} (hlen : bs.length = 13) (hl : fieldAt bs 4 1 < 16) :
    encodeRx (rxRecord bs) = { port := .rx, bytes := bs } := by
  have hid : (rxRecord bs).id.toNat = fieldAt bs 0 4 := Nat.mod_eq_of_lt (fieldAt_lt (by omega))
  have hl' : (rxRecord bs).len.toNat = fieldAt bs 4 1 := Nat.mod_eq_of_lt hl
  have hdata : (rxRecord bs).data.toNat = fieldAt bs 5 8 := Nat.mod_eq_of_lt (fieldAt_lt (by omega))
  rw [encodeRx, hid, hl', hdata]
  simp (disch := omega) only [leBytes_fieldAt, bytesAt_append, bytesAt_all]

/-! ### The Q and DQ records (R30, R31) -/

theorem decode_q {bs : List Byte} (h : bs.length = recordLength .q) :
    decode { port := .q, bytes := bs } = decodeQ bs :=
  if_pos h

theorem decode_dq {bs : List Byte} (h : bs.length = recordLength .dq) :
    decode { port := .dq, bytes := bs } = decodeDq bs :=
  if_pos h

theorem decodeQ_eq_ok_iff {bs : List Byte} {i : Instr} :
    decodeQ bs = .ok i ↔ fieldAt bs 24 1 < 64 ∧ .quant (realAt bs 0) (rangeAt bs 8) = i := by
  dsimp only [decodeQ]
  split_ifs with hbits
  · exact iff_of_false nofun fun h => absurd h.1 (Nat.not_lt.mpr hbits)
  · exact ⟨fun h => ⟨Nat.lt_of_not_le hbits, Except.ok.inj h⟩, fun h => congrArg _ h.2⟩

theorem decodeDq_eq_ok_iff {bs : List Byte} {i : Instr} :
    decodeDq bs = .ok i ↔
      fieldAt bs 20 1 < 64 ∧ .dequant (BitVec.ofNat 32 (fieldAt bs 0 4)) (rangeAt bs 4) = i := by
  dsimp only [decodeDq]
  split_ifs with hbits
  · exact iff_of_false nofun fun h => absurd h.1 (Nat.not_lt.mpr hbits)
  · exact ⟨fun h => ⟨Nat.lt_of_not_le hbits, Except.ok.inj h⟩, fun h => congrArg _ h.2⟩

theorem decode_encode_quant (x : F64) (r : ScalarRange) :
    decode { port := .q, bytes := realBytes x ++ rangeBytes r } = .ok (.quant x r) := by
  refine (decode_q (by simp [recordLength])).trans (decodeQ_eq_ok_iff.mpr ⟨?_, ?_⟩)
  · rw [fieldAt_bits_rangeBytes (by simp)]
    exact r.bits.isLt
  · rw [realAt_realBytes, rangeAt_rangeBytes (by simp)]

theorem decode_encode_dequant (q : BitVec 32) (r : ScalarRange) :
    decode { port := .dq, bytes := leBytes 4 q.toNat ++ rangeBytes r } = .ok (.dequant q r) := by
  refine (decode_dq (by simp [recordLength])).trans (decodeDq_eq_ok_iff.mpr ⟨?_, ?_⟩)
  · rw [fieldAt_bits_rangeBytes (by simp)]
    exact r.bits.isLt
  · rw [fieldAt_leBytes 4 _ _ q.isLt, BitVec.ofNat_toNat, BitVec.setWidth_eq, rangeAt_rangeBytes (by simp)]

theorem encode_quant_of_fields {bs : List Byte} (hlen : bs.length = 25) (hbits : fieldAt bs 24 1 < 64) :
    encode (.quant (realAt bs 0) (rangeAt bs 8)) = some { port := .q, bytes := bs } := by
  rw [encode, rangeBytes_rangeAt (by omega) hbits]
  simp (disch := omega) only [realBytes_realAt, bytesAt_append, bytesAt_all]

theorem encode_dequant_of_fields {bs : List Byte} (hlen : bs.length = 21) (hbits : fieldAt bs 20 1 < 64) :
    encode (.dequant (BitVec.ofNat 32 (fieldAt bs 0 4)) (rangeAt bs 4)) = some { port := .dq, bytes := bs } := by
  have hcode : (BitVec.ofNat 32 (fieldAt bs 0 4)).toNat = fieldAt bs 0 4 := Nat.mod_eq_of_lt (fieldAt_lt (by omega))
  rw [encode, rangeBytes_rangeAt (by omega) hbits, hcode]
  simp (disch := omega) only [leBytes_fieldAt, bytesAt_append, bytesAt_all]

/-! ### Selection (R68, R74) -/

theorem knownOpcode_eq_false_iff {op : BitVec 6} : knownOpcode op = false ↔ op ≠ 1 ∧ op ≠ 2 ∧ op ≠ 4 := by
  simp [knownOpcode, and_assoc]

theorem selectBuild_unknown {op : BitVec 6} (m : BitVec 5) (c : CommandIn) (h : knownOpcode op = false) :
    selectBuild op m c = .buildUnknown op m c := by
  obtain ⟨h1, h2, h4⟩ := knownOpcode_eq_false_iff.mp h
  rw [selectBuild, if_neg h1, if_neg h2, if_neg h4]

/-- A selected BUILD is well formed and presented by the record it was selected for. -/
theorem selectBuild_wellFormed_encode (op : BitVec 6) (m : BitVec 5) (c : CommandIn) :
    WellFormed (selectBuild op m c) = true ∧ encode (selectBuild op m c) = some (encodeTx op m c) := by
  rcases selectBuild_cases op m c with ⟨rfl, h⟩ | ⟨rfl, h⟩ | ⟨rfl, h⟩ | ⟨h1, h2, h4, h⟩ <;> rw [h]
  · exact ⟨rfl, rfl⟩
  · exact ⟨rfl, rfl⟩
  · exact ⟨rfl, rfl⟩
  · exact ⟨by rw [WellFormed, knownOpcode_eq_false_iff.mpr ⟨h1, h2, h4⟩]; rfl, rfl⟩

theorem selectParse_disable {rx : RxIn} (h : opcodeField rx.id = 1) : selectParse rx = .parseDisable rx := by
  simp [selectParse, rxOpcode_eq_opcodeField, h]

theorem selectParse_enable {rx : RxIn} (h : opcodeField rx.id = 2) : selectParse rx = .parseEnable rx := by
  simp [selectParse, rxOpcode_eq_opcodeField, h]

theorem selectParse_control {rx : RxIn} (h : opcodeField rx.id = 4) : selectParse rx = .parseControl rx := by
  simp [selectParse, rxOpcode_eq_opcodeField, h]

theorem selectParse_unknown {rx : RxIn} (h : knownOpcode (opcodeField rx.id) = false) :
    selectParse rx = .parseUnknown rx := by
  obtain ⟨h1, h2, h4⟩ := knownOpcode_eq_false_iff.mp h
  rw [selectParse, rxOpcode_eq_opcodeField, if_neg h1, if_neg h2, if_neg h4]

/-- A selected PARSE is well formed and presented by the record it was selected for. -/
theorem selectParse_wellFormed_encode (rx : RxIn) :
    WellFormed (selectParse rx) = true ∧ encode (selectParse rx) = some (encodeRx rx) := by
  have hsel := selectParse_cases rx
  rw [rxOpcode_eq_opcodeField] at hsel
  rcases hsel with ⟨hop, h⟩ | ⟨hop, h⟩ | ⟨hop, h⟩ | ⟨h1, h2, h4, h⟩ <;> rw [h]
  · exact ⟨beq_iff_eq.mpr hop, rfl⟩
  · exact ⟨beq_iff_eq.mpr hop, rfl⟩
  · exact ⟨beq_iff_eq.mpr hop, rfl⟩
  · exact ⟨by rw [WellFormed, knownOpcode_eq_false_iff.mpr ⟨h1, h2, h4⟩, Bool.not_false], rfl⟩

/-! ### The round trips -/

/-- Settles O3: each constructor's request is one of the four records, decoded by the lemmas above; the opcode of a
well-formed instruction selects that instruction. -/
theorem decodeInvertsEncode : Obligations.DecodeInvertsEncode := by
  unfold Obligations.DecodeInvertsEncode
  intro i r hw hr
  have hparse (rx : RxIn) (hrx : encodeRx rx = r) (hi : selectParse rx = i) : decode r = .ok i :=
    hrx ▸ hi ▸ decode_encodeRx rx
  cases i with
  | quant x rg => exact Option.some.inj hr ▸ decode_encode_quant x rg
  | dequant q rg => exact Option.some.inj hr ▸ decode_encode_dequant q rg
  | pack c => cases hr
  | unpack n p => cases hr
  | idenc op m => cases hr
  | iddec id => cases hr
  | buildDisable m c => exact Option.some.inj hr ▸ decode_encodeTx 1 m c
  | buildEnable m c => exact Option.some.inj hr ▸ decode_encodeTx 2 m c
  | buildControl m c => exact Option.some.inj hr ▸ decode_encodeTx 4 m c
  | buildUnknown op m c =>
    rw [← Option.some.inj hr, decode_encodeTx, selectBuild_unknown m c (by simpa [WellFormed] using hw)]
  | parseDisable rx => exact hparse rx (Option.some.inj hr) (selectParse_disable (beq_iff_eq.mp hw))
  | parseEnable rx => exact hparse rx (Option.some.inj hr) (selectParse_enable (beq_iff_eq.mp hw))
  | parseControl rx => exact hparse rx (Option.some.inj hr) (selectParse_control (beq_iff_eq.mp hw))
  | parseUnknown rx => exact hparse rx (Option.some.inj hr) (selectParse_unknown (by simpa [WellFormed] using hw))

/-- Settles O4: on each port the fields that the decoder reads, once within their widths, write the record back. -/
theorem encodeInvertsDecode : Obligations.EncodeInvertsDecode := by
  unfold Obligations.EncodeInvertsDecode
  rintro ⟨port, bs⟩ i h
  have hlen : bs.length = recordLength port := (decode_ok_cases _ _ h).1
  cases port with
  | tx =>
    rw [decode_tx hlen, decodeTx_eq_ok_iff] at h
    obtain ⟨hid, hvalid, rfl⟩ := h
    rw [← encodeTx_of_fields hlen hid hvalid]
    exact selectBuild_wellFormed_encode _ _ _
  | rx =>
    rw [decode_rx hlen, decodeRx_eq_ok_iff] at h
    obtain ⟨hl, rfl⟩ := h
    rw [← encodeRx_of_fields hlen hl]
    exact selectParse_wellFormed_encode _
  | q =>
    rw [decode_q hlen, decodeQ_eq_ok_iff] at h
    obtain ⟨hbits, rfl⟩ := h
    exact ⟨rfl, encode_quant_of_fields hlen hbits⟩
  | dq =>
    rw [decode_dq hlen, decodeDq_eq_ok_iff] at h
    obtain ⟨hbits, rfl⟩ := h
    exact ⟨rfl, encode_dequant_of_fields hlen hbits⟩

/-! ### Table words (R61, R68) -/

/-- Settles O5: the eight words are evaluated; the absent command of a TX word is the zero record. -/
theorem tableWordsDecodeToTheirRows : Obligations.TableWordsDecodeToTheirRows := by
  unfold Obligations.TableWordsDecodeToTheirRows
  exact ⟨⟨_, rfl⟩, ⟨_, rfl⟩, ⟨_, rfl⟩, ⟨_, rfl⟩, rfl, rfl, rfl, rfl⟩

end Sys2Proof

/-! PROOFS. Rounding as a function of the exact value (00_scope.md R14, R15): it is monotone, keeps every binary64
value, and each operation is one application of it. -/

namespace Sys2Proof.Machine

/-! ### Rounding of magnitudes -/

section
variable {p p' q : Nat}

/-- A rounded quotient is a magnitude of at most 53 significant bits. -/
theorem roundQuot_eq_scaled (p q : Nat) : ∃ t j, t < 2 ^ 53 ∧ roundQuot p q = t * 2 ^ j := by
  obtain ⟨ht, -⟩ := roundedQuanta_scaled (p := p) (q := q)
  rcases Nat.lt_or_eq_of_le ht with hlt | htop
  · exact ⟨_, _, hlt, roundQuot_eq p q⟩
  · exact ⟨2 ^ 52, quantumExp p q + 1, by norm_num, by rw [roundQuot_eq, htop]; ring⟩

/-- Were the larger quotient rounded lower, each rounding would be nearer to the other quotient's. -/
theorem roundQuot_mono (hq : 0 < q) (h : p ≤ p') : roundQuot p q ≤ roundQuot p' q := by
  rcases Nat.eq_or_lt_of_le h with rfl | hlt
  · exact le_rfl
  obtain ⟨t, j, ht, hr⟩ := roundQuot_eq_scaled p q
  obtain ⟨t', j', ht', hr'⟩ := roundQuot_eq_scaled p' q
  have hnear := (roundQuot_nearest (p := p) hq (j := j') ht').1
  have hnear' := (roundQuot_nearest (p := p') hq (j := j) ht).1
  rw [← hr'] at hnear
  rw [← hr] at hnear'
  by_contra hgt
  have hscaled : roundQuot p' q * q < roundQuot p q * q := Nat.mul_lt_mul_of_pos_right (not_le.mp hgt) hq
  simp only [Int.abs_eq_natAbs, ← Int.natCast_mul] at hnear hnear'
  omega

/-- Rounding does not pass a magnitude of at most 53 bits. -/
theorem roundQuot_le (hq : 0 < q) {t j : Nat} (ht : t < 2 ^ 53) (h : p ≤ t * 2 ^ j * q) :
    roundQuot p q ≤ t * 2 ^ j := by
  rw [← roundQuot_exact hq (j := j) ht]
  exact roundQuot_mono hq h

theorem le_roundQuot (hq : 0 < q) {t j : Nat} (ht : t < 2 ^ 53) (h : t * 2 ^ j * q ≤ p) :
    t * 2 ^ j ≤ roundQuot p q := by
  rw [← roundQuot_exact hq (j := j) ht]
  exact roundQuot_mono hq h

/-- Rounding sees the quotient only, not the fraction that writes it. -/
theorem roundQuot_mul_right (p q : Nat) {c : Nat} (hc : 0 < c) : roundQuot (p * c) (q * c) = roundQuot p q := by
  have hexp : quantumExp (p * c) (q * c) = quantumExp p q := by
    unfold quantumExp
    rw [Nat.mul_div_mul_right p q hc]
  have hwhole : wholeQuanta (p * c) (q * c) = wholeQuanta p q := by
    unfold wholeQuanta
    rw [hexp, mul_right_comm q, Nat.mul_div_mul_right _ _ hc]
  have hrem : remQuanta (p * c) (q * c) = remQuanta p q * c := by
    unfold remQuanta
    rw [hexp, mul_right_comm q, Nat.mul_mod_mul_right]
  have hrounded : roundedQuanta (p * c) (q * c) = roundedQuanta p q := by
    unfold roundedQuanta
    rw [hexp, hwhole, hrem, mul_right_comm q, ← mul_assoc]
    simp only [Nat.mul_lt_mul_right hc, Nat.mul_left_inj hc.ne']
  rw [roundQuot_eq, roundQuot_eq, hexp, hrounded]

end

/-! ### Rounding of signed values -/

/-- `u / q` units rounded by magnitude, with the sign of `u`. -/
def roundSigned (u : Int) (q : Nat) : Int := signed (decide (u < 0)) (roundQuot u.natAbs q)

@[simp] theorem roundSigned_natCast (p q : Nat) : roundSigned p q = roundQuot p q := by
  simp [roundSigned, signed]

@[simp] theorem roundSigned_zero (q : Nat) : roundSigned 0 q = 0 := by simp [roundSigned]

/-- A quotient whose terms both carry the factor 1.0. -/
theorem roundSigned_mul_one (p q : Nat) : roundSigned (p * F64.one) (q * F64.one) = roundQuot p q := by
  rw [← Nat.cast_mul, roundSigned_natCast, roundQuot_mul_right p q F64.one_pos]

theorem roundSigned_neg (u : Int) (q : Nat) : roundSigned (-u) q = -roundSigned u q := by
  rcases Int.lt_trichotomy u 0 with hu | rfl | hu
  · simp [roundSigned, signed, hu, hu.le.not_gt]
  · simp
  · simp [roundSigned, signed, hu, hu.le.not_gt]

theorem roundSigned_signed (neg : Bool) (p q : Nat) : roundSigned (signed neg p) q = signed neg (roundQuot p q) := by
  cases neg <;> simp [signed, roundSigned_neg]

theorem roundSigned_nonneg {u : Int} (hu : 0 ≤ u) (q : Nat) : 0 ≤ roundSigned u q := by
  obtain ⟨p, rfl⟩ := Int.eq_ofNat_of_zero_le hu
  rw [roundSigned_natCast]
  exact Int.natCast_nonneg _

theorem roundSigned_mono {u u' : Int} {q : Nat} (hq : 0 < q) (h : u ≤ u') : roundSigned u q ≤ roundSigned u' q := by
  rcases le_total 0 u with hu | hu
  · obtain ⟨p, rfl⟩ := Int.eq_ofNat_of_zero_le hu
    obtain ⟨p', rfl⟩ := Int.eq_ofNat_of_zero_le (hu.trans h)
    simpa using roundQuot_mono hq (Int.ofNat_le.mp h)
  · obtain ⟨p, hp⟩ := Int.eq_ofNat_of_zero_le (neg_nonneg.mpr hu)
    obtain rfl : u = -p := by omega
    rcases le_total 0 u' with hu' | hu'
    · have := roundSigned_nonneg hu' q
      rw [roundSigned_neg, roundSigned_natCast]
      omega
    · obtain ⟨p', hp'⟩ := Int.eq_ofNat_of_zero_le (neg_nonneg.mpr hu')
      obtain rfl : u' = -p' := by omega
      rw [roundSigned_neg, roundSigned_neg, roundSigned_natCast, roundSigned_natCast]
      have := roundQuot_mono hq (p := p') (p' := p) (by omega)
      omega

/-- A binary64 value is its own rounding. -/
theorem roundSigned_units (a : F64) : roundSigned (F64.units a) 1 = F64.units a := by
  obtain ⟨t, j, ht, hm⟩ := mag_eq_scaled a
  have hexact := roundQuot_exact Nat.one_pos (j := j) ht
  rw [Nat.mul_one] at hexact
  rw [units_eq_signed, roundSigned_signed, hm, hexact]

/-! ### The operations on values (R15) -/

theorem units_fl_eq {neg : Bool} {p q : Nat} (hf : F64.finite (fl neg p q) = true) :
    F64.units (fl neg p q) = roundSigned (signed neg p) q := by rw [units_fl hf, roundSigned_signed]

theorem sign_of_units_pos {a : F64} (h : 0 < F64.units a) : F64.sign a = false := by
  cases hs : F64.sign a with
  | false => rfl
  | true =>
    have hneg : F64.units a = -(F64.mag a : Int) := if_pos hs
    omega

theorem mag_of_units_nonneg {a : F64} (h : 0 ≤ F64.units a) : (F64.mag a : Int) = F64.units a := by
  rw [← units_natAbs a, Int.natAbs_of_nonneg h]

section
variable {a b : F64} (ha : F64.finite a = true) (hb : F64.finite b = true)
include ha hb

theorem units_fadd (hf : F64.finite (fadd a b) = true) :
    F64.units (fadd a b) = roundSigned (F64.units a + F64.units b) 1 := by
  by_cases h : F64.units a + F64.units b = 0
  · rw [fadd_of_sum_zero ha hb h, h, units_packMag_zero, roundSigned_zero]
  · rw [fadd_of_sum_ne_zero ha hb h] at hf ⊢
    rw [units_fl_eq hf, signed_natAbs_of_neg]

theorem units_fsub (hf : F64.finite (fsub a b) = true) :
    F64.units (fsub a b) = roundSigned (F64.units a - F64.units b) 1 := by
  rw [fsub, units_fadd ha ((finite_neg b).trans hb) hf, units_neg, sub_eq_add_neg]

theorem units_fmul (hf : F64.finite (fmul a b) = true) :
    F64.units (fmul a b) = roundSigned (F64.units a * F64.units b) F64.one := by
  rw [fmul_of_finite ha hb] at hf ⊢
  rw [units_fl_eq hf, units_eq_signed a, units_eq_signed b, signed_mul]

theorem units_fdiv (hpos : 0 < F64.units b) (hf : F64.finite (fdiv a b) = true) :
    F64.units (fdiv a b) = roundSigned (F64.units a * F64.one) (F64.mag b) := by
  have hmag : F64.mag b ≠ 0 := (units_eq_zero b).not.mp hpos.ne'
  rw [fdiv_of_finite ha hb hmag] at hf ⊢
  rw [units_fl_eq hf, sign_of_units_pos hpos, Bool.bne_false, units_eq_signed a, signed_mul_natCast]

end

end Sys2Proof.Machine

/-! PROOFS. QUANT and DEQUANT (40_scalar_quantizer.md R90 to R99): what each answers, by the formula. -/

namespace Sys2Proof.Machine

/-! ### The outcome of a transaction -/

section
variable {x : F64} {r : ScalarRange} {s : State}

theorem rangeOk_iff (r : ScalarRange) :
    rangeOk Numerics.reference r = true ↔ F64.finite r.min = true ∧ F64.finite r.max = true
      ∧ F64.units r.min < F64.units r.max ∧ 1 ≤ r.bits.toNat ∧ r.bits.toNat ≤ 32 := by
  simp [rangeOk, Numerics.reference, flt, and_assoc]

theorem exec_quant_ok {t : Int} (hr : rangeOk Numerics.reference r = true)
    (h : quantize Numerics.reference s.config.strictRange x r = .ok t) :
    exec (.quant x r) s = .next (s.emitQ { code := codeOf t, fault := false, oor := false }) := by
  rw [exec, execQuant, if_pos hr, h]

theorem exec_quant_error {k : ErrKind} (hr : rangeOk Numerics.reference r = true)
    (h : quantize Numerics.reference s.config.strictRange x r = .error k) :
    exec (.quant x r) s = .next (s.raiseQ k) := by
  rw [exec, execQuant, if_pos hr, h]

theorem exec_dequant_finite {q : BitVec 32} (hr : rangeOk Numerics.reference r = true)
    (h : dequantFinite (dequantSteps Numerics.reference q.toNat r) = true) :
    exec (.dequant q r) s =
      .next (s.emitDq { y := (dequantSteps Numerics.reference q.toNat r).y, fault := false }) := by
  rw [exec, execDequant, if_pos hr]
  exact if_pos h

theorem exec_dequant_nonFinite {q : BitVec 32} (hr : rangeOk Numerics.reference r = true)
    (h : dequantFinite (dequantSteps Numerics.reference q.toNat r) = false) :
    exec (.dequant q r) s = .next s.raiseDq := by
  rw [exec, execDequant, if_pos hr]
  exact if_neg (Bool.not_eq_true _ ▸ h)

theorem exec_quant_refused_iff :
    exec (.quant x r) s = .refused .illFormedRange ↔ ¬ rangeOk Numerics.reference r = true := by
  by_cases hr : rangeOk Numerics.reference r = true
  · cases hq : quantize Numerics.reference s.config.strictRange x r with
    | ok t => simp [exec_quant_ok hr hq, hr]
    | error k => simp [exec_quant_error hr hq, hr]
  · simp [exec, execQuant, hr]

theorem exec_dequant_refused_iff {q : BitVec 32} :
    exec (.dequant q r) s = .refused .illFormedRange ↔ ¬ rangeOk Numerics.reference r = true := by
  by_cases hr : rangeOk Numerics.reference r = true
  · cases hd : dequantFinite (dequantSteps Numerics.reference q.toNat r) with
    | true => simp [exec_dequant_finite hr hd, hr]
    | false => simp [exec_dequant_nonFinite hr hd, hr]
  · simp [exec, execDequant, hr]

end

/-- Settles O23: any range that passes the check is answered with a next state. -/
theorem illFormedRangeIsRefused : Obligations.IllFormedRangeIsRefused := by
  unfold Obligations.IllFormedRangeIsRefused
  intro x q r s
  rw [← rangeOk_iff]
  exact ⟨exec_quant_refused_iff, exec_dequant_refused_iff⟩

/-- Settles O22: the three clauses are the three cases of `quantize`. -/
theorem quantRunsByTheFormula : Obligations.QuantRunsByTheFormula := by
  unfold Obligations.QuantRunsByTheFormula
  intro x r s hr span d m v finite out
  have hfinite : quantFinite x (quantSteps Numerics.reference x r) = finite := rfl
  have hout : (s.config.strictRange && outside Numerics.reference x r) = out := rfl
  rcases quantize_cases Numerics.reference s.config.strictRange x r with ⟨hf, ho, h⟩ | ⟨hf, ho, h⟩ | ⟨hf, h⟩
  · rw [hfinite] at hf
    rw [hout] at ho
    exact ⟨by simp [hf], by simp [ho], fun _ _ => exec_quant_ok hr h⟩
  · rw [hfinite] at hf
    rw [hout] at ho
    exact ⟨by simp [hf], fun _ _ => ⟨_, _, exec_quant_error hr h⟩, by simp [ho]⟩
  · rw [hfinite] at hf
    exact ⟨fun _ => ⟨_, _, exec_quant_error hr h⟩, by simp [hf], by simp [hf]⟩

/-- Settles O32: the four values are the fields of `dequantSteps`. -/
theorem dequantRunsByTheFormula : Obligations.DequantRunsByTheFormula := by
  unfold Obligations.DequantRunsByTheFormula
  intro q r s hr span a b y finite
  exact ⟨exec_dequant_finite hr, fun hf => ⟨_, _, exec_dequant_nonFinite hr hf⟩⟩

end Sys2Proof.Machine

/-! PROOFS. The values of QUANT and DEQUANT (40_scalar_quantizer.md R91 to R101), in units of 2^-1074. -/

namespace Sys2Proof.Machine

/-! ### Codes (R93) -/

/-- The code of a multiple of 2^32 is 0, whatever its sign. -/
theorem codeOf_eq_zero {t : Int} (h : 2 ^ 32 ∣ t.natAbs) : codeOf t = 0 := by
  have hmod : t % 2 ^ 32 = 0 := Int.emod_eq_zero_of_dvd (Int.natCast_dvd.mpr h)
  apply BitVec.eq_of_toNat_eq
  simpa [codeOf, BitVec.toNat_ofInt] using hmod.le

/-- Settles O25: a magnitude of 2^85 and more is a significand of 53 bits at a quantum of at least 2^32. -/
theorem hugeQuotientsGiveCodeZero : Obligations.HugeQuotientsGiveCodeZero := by
  unfold Obligations.HugeQuotientsGiveCodeZero
  intro a _ hhuge
  obtain ⟨t, j, ht, hm⟩ := mag_eq_scaled a
  obtain ⟨e, hone⟩ : ∃ e, F64.one = 2 ^ e := ⟨1074, rfl⟩
  have hj : 32 + e ≤ j := by
    by_contra hsmall
    have hbelow : t * 2 ^ j < 2 ^ 53 * 2 ^ (32 + e) :=
      Nat.mul_lt_mul_of_lt_of_le ht (Nat.pow_le_pow_right (by norm_num) (by omega)) (by positivity)
    rw [Nat.pow_add, ← hone] at hbelow
    omega
  obtain ⟨i, rfl⟩ := Nat.exists_eq_add_of_le hj
  have hmultiple : t * 2 ^ (32 + e + i) = 2 ^ 32 * (t * 2 ^ i) * F64.one := by rw [hone]; ring
  apply codeOf_eq_zero
  rw [f2i_natAbs, hm, hmultiple, Nat.mul_div_cancel _ F64.one_pos]
  exact Nat.dvd_mul_right _ _

/-! ### The constants of a range (R90) -/

section
variable {r : ScalarRange}

theorem rangeN_lt (hr : rangeOk Numerics.reference r = true) : 0 < rangeN r ∧ rangeN r < 2 ^ 32 := by
  obtain ⟨-, -, -, hlow, hhigh⟩ := (rangeOk_iff r).mp hr
  have h1 : 2 ^ 1 ≤ 2 ^ r.bits.toNat := Nat.pow_le_pow_right (by norm_num) hlow
  have h32 : 2 ^ r.bits.toNat ≤ 2 ^ 32 := Nat.pow_le_pow_right (by norm_num) hhigh
  unfold rangeN
  omega

theorem u2f_rangeN (hr : rangeOk Numerics.reference r = true) :
    F64.finite (u2f (rangeN r)) = true ∧ F64.units (u2f (rangeN r)) = rangeN r * F64.one :=
  u2f_exact ((rangeN_lt hr).2.trans (by norm_num))

theorem u2f_rangeN_pos (hr : rangeOk Numerics.reference r = true) : 0 < F64.units (u2f (rangeN r)) := by
  rw [(u2f_rangeN hr).2]
  exact mul_pos (Int.natCast_pos.mpr (rangeN_lt hr).1) (Int.natCast_pos.mpr F64.one_pos)

/-- The span of a well-formed range is not rounded away: the bounds differ by a whole unit at least. -/
theorem span_pos (hr : rangeOk Numerics.reference r = true) (hs : F64.finite (fsub r.max r.min) = true) :
    0 < F64.units (fsub r.max r.min) := by
  obtain ⟨hmin, hmax, hlt, -, -⟩ := (rangeOk_iff r).mp hr
  have hunit : roundSigned 1 1 = 1 := by decide
  rw [units_fsub hmax hmin hs]
  exact (zero_lt_one.trans_eq hunit.symm).trans_le (roundSigned_mono Nat.one_pos (by omega))

theorem mag_span_ne_zero (hr : rangeOk Numerics.reference r = true) (hs : F64.finite (fsub r.max r.min) = true) :
    F64.mag (fsub r.max r.min) ≠ 0 := (units_eq_zero _).not.mp (span_pos hr hs).ne'

/-! ### The quotient of QUANT (R91) -/

theorem quantFinite_iff (x : F64) (q : QuantSteps) :
    quantFinite x q = true ↔ F64.finite x = true ∧ F64.finite q.span = true ∧ F64.finite q.d = true
      ∧ F64.finite q.m = true ∧ F64.finite q.v = true := by
  simp [quantFinite, and_assoc]

/-- `v` of R91 for an `x` of `u` units: three roundings. -/
def quotientUnits (r : ScalarRange) (u : Int) : Int :=
  let d := roundSigned (u - F64.units r.min) 1
  let m := roundSigned (d * (rangeN r * F64.one)) F64.one
  roundSigned (m * F64.one) (F64.mag (fsub r.max r.min))

theorem units_quotient {x : F64} (hr : rangeOk Numerics.reference r = true)
    (hf : quantFinite x (quantSteps Numerics.reference x r) = true) :
    F64.units (quantSteps Numerics.reference x r).v = quotientUnits r (F64.units x) := by
  obtain ⟨hx, hspan, hd, hm, hv⟩ := (quantFinite_iff _ _).mp hf
  obtain ⟨hmin, hmax, -, -, -⟩ := (rangeOk_iff r).mp hr
  obtain ⟨hN, hNunits⟩ := u2f_rangeN hr
  rw [quotientUnits, ← hNunits, ← units_fsub hx hmin hd]
  refine (units_fdiv hm hspan (span_pos hr hspan) hv).trans ?_
  exact congrArg (fun m => roundSigned (m * F64.one) _) (units_fmul hd hN hm)

theorem quotientUnits_mono (hr : rangeOk Numerics.reference r = true)
    (hs : F64.finite (fsub r.max r.min) = true) {u u' : Int} (h : u ≤ u') :
    quotientUnits r u ≤ quotientUnits r u' := by
  have hspan := Nat.pos_of_ne_zero (mag_span_ne_zero hr hs)
  have hd := roundSigned_mono Nat.one_pos (Int.sub_le_sub_right h (F64.units r.min))
  have hm := roundSigned_mono F64.one_pos
    (mul_le_mul_of_nonneg_right hd (mul_nonneg (Int.natCast_nonneg (rangeN r)) (Int.natCast_nonneg F64.one)))
  exact roundSigned_mono hspan (mul_le_mul_of_nonneg_right hm (Int.natCast_nonneg _))

theorem f2i_mono {a b : F64} (h : F64.units a ≤ F64.units b) : f2i a ≤ f2i b :=
  Int.tdiv_le_tdiv (Int.natCast_pos.mpr F64.one_pos) h

theorem quantize_eq_ok {strict : Bool} {x : F64} {t : Int}
    (h : quantize Numerics.reference strict x r = .ok t) :
    quantFinite x (quantSteps Numerics.reference x r) = true
      ∧ t = f2i (quantSteps Numerics.reference x r).v := by
  rcases quantize_cases Numerics.reference strict x r with ⟨hf, -, h'⟩ | ⟨-, -, h'⟩ | ⟨-, h'⟩ <;> rw [h'] at h
  · exact ⟨hf, (Except.ok.inj h).symm⟩
  · cases h
  · cases h

/-- Settles O26: each of the three roundings is monotone, and so is the truncation. -/
theorem quantIsMonotone : Obligations.QuantIsMonotone := by
  unfold Obligations.QuantIsMonotone
  intro strict r x y t u hr hxy hx hy
  obtain ⟨hfx, rfl⟩ := quantize_eq_ok hx
  obtain ⟨hfy, rfl⟩ := quantize_eq_ok hy
  obtain ⟨-, hspan, -, -, -⟩ := (quantFinite_iff _ _).mp hfx
  apply f2i_mono
  rw [units_quotient hr hfx, units_quotient hr hfy]
  exact quotientUnits_mono hr hspan hxy

/-! ### The lower end (R97, R100) -/

@[simp] theorem finite_signedZero (neg : Bool) : F64.finite (signedZero neg) = true := by cases neg <;> decide

theorem fsub_self {a : F64} (ha : F64.finite a = true) : fsub a a = signedZero false := by
  rw [fsub_exact_zero ha ha (sub_self _)]
  congr 1
  rw [decide_eq_false_iff_not]
  rintro ⟨rfl, h⟩
  exact absurd h (by decide)

theorem fmul_signedZero {a : F64} (neg : Bool) (ha : F64.finite a = true) :
    fmul (signedZero neg) a = signedZero (neg != F64.sign a) := by
  rw [fmul_exact_zero (finite_signedZero neg) ha (.inl (mag_signedZero neg)), sign_signedZero]

theorem fdiv_signedZero {a : F64} (neg : Bool) (ha : F64.finite a = true) (h : F64.mag a ≠ 0) :
    fdiv (signedZero neg) a = signedZero (neg != F64.sign a) := by
  rw [fdiv_exact_zero (finite_signedZero neg) ha (mag_signedZero neg) h, sign_signedZero]

/-- Adding a value to `+0` gives the value, with the sign of a zero lost. -/
theorem fadd_posZero {a : F64} (ha : F64.finite a = true) :
    fadd (signedZero false) a = if F64.mag a = 0 then 0 else a := by
  have hzero : F64.units (signedZero false) = 0 := by decide
  split
  case isTrue h =>
    rw [fadd_exact_zero (finite_signedZero false) ha (by rw [hzero, (units_eq_zero a).mpr h, add_zero])]
    rw [decide_eq_false (by rintro ⟨hcontra, -⟩; exact absurd hcontra (by decide))]
    rfl
  case isFalse h =>
    obtain ⟨t, j, ht, hm⟩ := mag_eq_scaled a
    have hexact := roundQuot_exact Nat.one_pos (j := j) ht
    rw [Nat.mul_one, ← hm] at hexact
    have hsign : decide (F64.units a < 0) = F64.sign a := by
      cases hs : F64.sign a <;> simp [units_eq_signed, signed, hs, Nat.pos_iff_ne_zero, h]
    rw [fadd_of_sum_ne_zero (finite_signedZero false) ha (by rw [hzero, zero_add]; exact (units_eq_zero a).not.mpr h)]
    rw [hzero, zero_add, units_natAbs, fl, hexact, hsign, packMag_sign_mag ha]

/-- From `d` on QUANT of `min` is `+0`. -/
theorem quantSteps_min (hr : rangeOk Numerics.reference r = true) (hs : F64.finite (fsub r.max r.min) = true) :
    quantSteps Numerics.reference r.min r =
      { span := fsub r.max r.min, d := signedZero false, m := signedZero false, v := signedZero false } := by
  obtain ⟨hmin, -, -, -, -⟩ := (rangeOk_iff r).mp hr
  simp [quantSteps, Numerics.reference, fsub_self hmin, fmul_signedZero, fdiv_signedZero, (u2f_rangeN hr).1, hs,
    mag_span_ne_zero hr hs, sign_of_units_pos (u2f_rangeN_pos hr), sign_of_units_pos (span_pos hr hs)]

theorem quantize_min (strict : Bool) (hr : rangeOk Numerics.reference r = true)
    (hs : F64.finite (fsub r.max r.min) = true) : quantize Numerics.reference strict r.min r = .ok 0 := by
  obtain ⟨hmin, -, hlt, -, -⟩ := (rangeOk_iff r).mp hr
  have hsteps := quantSteps_min hr hs
  have hinside : outside Numerics.reference r.min r = false := by
    simp [outside, Numerics.reference, flt, hlt.le]
  rw [quantize_of_not_outside strict (by simp [quantFinite_iff, hsteps, hmin, hs]) hinside, hsteps]
  exact congrArg Except.ok (f2i_zero (a := signedZero false) (by decide))

/-- Settles O27: QUANT of `min` truncates `+0`. -/
theorem quantOfMinIsZero : Obligations.QuantOfMinIsZero := by
  unfold Obligations.QuantOfMinIsZero
  intro r s hr hs
  exact exec_quant_ok hr (quantize_min _ hr hs)

/-- Up to the last addition DEQUANT of code 0 is `+0`. -/
theorem dequantSteps_zero (hr : rangeOk Numerics.reference r = true) (hs : F64.finite (fsub r.max r.min) = true) :
    dequantSteps Numerics.reference 0 r =
      { span := fsub r.max r.min, a := signedZero false, b := signedZero false
        y := if F64.mag r.min = 0 then 0 else r.min } := by
  obtain ⟨hmin, -, -, -, -⟩ := (rangeOk_iff r).mp hr
  have hcode : u2f 0 = signedZero false := by rw [u2f, Nat.zero_mul, fl_zero, packMag_zero]
  have hN : F64.mag (u2f (rangeN r)) ≠ 0 := (units_eq_zero _).not.mp (u2f_rangeN_pos hr).ne'
  simp [dequantSteps, Numerics.reference, hcode, fmul_signedZero, fdiv_signedZero, fadd_posZero, (u2f_rangeN hr).1, hs,
    hN, hmin, sign_of_units_pos (u2f_rangeN_pos hr), sign_of_units_pos (span_pos hr hs)]

/-- Settles O33: DEQUANT of 0 adds `min` to `+0`. -/
theorem dequantOfZeroIsMin : Obligations.DequantOfZeroIsMin := by
  unfold Obligations.DequantOfZeroIsMin
  intro r s hr hs
  obtain ⟨hmin, -, -, -, -⟩ := (rangeOk_iff r).mp hr
  have hsteps : dequantSteps Numerics.reference (0 : BitVec 32).toNat r = _ := dequantSteps_zero hr hs
  have hy : F64.finite (if F64.mag r.min = 0 then 0 else r.min) = true := by
    split
    · decide
    · exact hmin
  have hfinite : dequantFinite (dequantSteps Numerics.reference (0 : BitVec 32).toNat r) = true := by
    rw [hsteps]
    simp only [dequantFinite, hs, hy, finite_signedZero, Bool.and_self]
  have hexec := exec_dequant_finite (s := s) hr hfinite
  rwa [hsteps] at hexec

end

end Sys2Proof.Machine

/-! PROOFS. Numbers of a range (40_scalar_quantizer.md R94, R98, R100): QUANT and DEQUANT are monotone, so what is
finite at `max`, or at the last code, is finite below. -/

namespace Sys2Proof.Machine

/-! ### Operations on smaller operands -/

/-- An operation whose exact result is no larger than that of one that does not overflow does not overflow. -/
theorem finite_of_threshold {a b : F64} {T u u' : Int} (ha : F64.finite a = false ↔ T ≤ u)
    (hb : F64.finite b = false ↔ T ≤ u') (h : u ≤ u') (hf : F64.finite b = true) : F64.finite a = true := by
  by_contra hn
  rw [Bool.not_eq_true, ha] at hn
  rw [hb.mpr (hn.trans h)] at hf
  cases hf

/-- `a` is finite, not negative, and at most `b`. -/
def Below (a b : F64) : Prop := F64.finite a = true ∧ 0 ≤ F64.units a ∧ F64.units a ≤ F64.units b

section
variable {a b c : F64}

theorem fsub_below (ha : F64.finite a = true) (hb : F64.finite b = true) (hc : F64.finite c = true)
    (hca : F64.units c ≤ F64.units a) (hab : F64.units a ≤ F64.units b) (hf : F64.finite (fsub b c) = true) :
    Below (fsub a c) (fsub b c) := by
  have hnonneg : 0 ≤ F64.units a - F64.units c := by omega
  have hle : F64.units a - F64.units c ≤ F64.units b - F64.units c := by omega
  have hfinite : F64.finite (fsub a c) = true :=
    finite_of_threshold (fsub_overflow_iff ha hc) (fsub_overflow_iff hb hc) (abs_le_abs_of_nonneg hnonneg hle) hf
  rw [Below, units_fsub ha hc hfinite, units_fsub hb hc hf]
  exact ⟨hfinite, roundSigned_nonneg hnonneg 1, roundSigned_mono Nat.one_pos hle⟩

theorem fmul_below (h : Below a b) (hb : F64.finite b = true) (hc : F64.finite c = true) (hpos : 0 < F64.units c)
    (hf : F64.finite (fmul b c) = true) : Below (fmul a c) (fmul b c) := by
  obtain ⟨ha, h0, hab⟩ := h
  have hnonneg := mul_nonneg h0 hpos.le
  have hle := mul_le_mul_of_nonneg_right hab hpos.le
  have hfinite : F64.finite (fmul a c) = true :=
    finite_of_threshold (fmul_overflow_iff ha hc) (fmul_overflow_iff hb hc) (abs_le_abs_of_nonneg hnonneg hle) hf
  rw [Below, units_fmul ha hc hfinite, units_fmul hb hc hf]
  exact ⟨hfinite, roundSigned_nonneg hnonneg _, roundSigned_mono F64.one_pos hle⟩

theorem fdiv_below (h : Below a b) (hb : F64.finite b = true) (hc : F64.finite c = true) (hpos : 0 < F64.units c)
    (hf : F64.finite (fdiv b c) = true) : Below (fdiv a c) (fdiv b c) := by
  obtain ⟨ha, h0, hab⟩ := h
  have hmag : F64.mag c ≠ 0 := (units_eq_zero c).not.mp hpos.ne'
  have hone : (0 : Int) ≤ F64.one := Int.natCast_nonneg _
  have hfinite : F64.finite (fdiv a c) = true :=
    finite_of_threshold (fdiv_overflow_iff ha hc hmag) (fdiv_overflow_iff hb hc hmag)
      (mul_le_mul_of_nonneg_right (abs_le_abs_of_nonneg h0 hab) hone) hf
  rw [Below, units_fdiv ha hc hpos hfinite, units_fdiv hb hc hpos hf]
  exact ⟨hfinite, roundSigned_nonneg (mul_nonneg h0 hone) _,
    roundSigned_mono (Nat.pos_of_ne_zero hmag) (mul_le_mul_of_nonneg_right hab hone)⟩

end

/-! ### QUANT in range (R94, R99) -/

section
variable {x : F64} {r : ScalarRange}

/-- If QUANT of `max` is finite at every step, so is QUANT of every number in range. -/
theorem quantFinite_of_inRange (hr : rangeOk Numerics.reference r = true)
    (htop : quantFinite r.max (quantSteps Numerics.reference r.max r) = true) (hx : InRange x r) :
    quantFinite x (quantSteps Numerics.reference x r) = true := by
  obtain ⟨hfx, hlow, hhigh⟩ := hx
  obtain ⟨hmax, hspan, htopd, htopm, htopv⟩ := (quantFinite_iff _ _).mp htop
  obtain ⟨hmin, -, -, -, -⟩ := (rangeOk_iff r).mp hr
  have hd := fsub_below hfx hmax hmin hlow hhigh htopd
  have hm := fmul_below hd htopd (u2f_rangeN hr).1 (u2f_rangeN_pos hr) htopm
  have hv := fdiv_below hm htopm hspan (span_pos hr hspan) htopv
  exact (quantFinite_iff _ _).mpr ⟨hfx, hspan, hd.1, hm.1, hv.1⟩

theorem outside_of_inRange (hx : InRange x r) : outside Numerics.reference x r = false := by
  obtain ⟨-, hlow, hhigh⟩ := hx
  simp [outside, Numerics.reference, flt, hlow, hhigh]

/-- QUANT of a number in range truncates the quotient, in both variants. -/
theorem quantize_of_inRange (strict : Bool) (hr : rangeOk Numerics.reference r = true)
    (htop : quantFinite r.max (quantSteps Numerics.reference r.max r) = true) (hx : InRange x r) :
    quantize Numerics.reference strict x r = .ok (Int.tdiv (quotientUnits r (F64.units x)) F64.one) := by
  have hf := quantFinite_of_inRange hr htop hx
  rw [quantize_of_not_outside strict hf (outside_of_inRange hx), ← units_quotient hr hf]
  rfl

/-! ### DEQUANT of small codes (R98) -/

theorem dequantFinite_iff (d : DequantSteps) :
    dequantFinite d = true ↔ F64.finite d.span = true ∧ F64.finite d.a = true ∧ F64.finite d.b = true
      ∧ F64.finite d.y = true := by
  simp [dequantFinite, and_assoc]

/-- If DEQUANT of `n` is finite at every step, so is DEQUANT of every smaller code: its last sum lies between `min` and
that of `n`. -/
theorem dequantFinite_of_le {q n : Nat} (hr : rangeOk Numerics.reference r = true) (hn : n < 2 ^ 53) (h : q ≤ n)
    (htop : dequantFinite (dequantSteps Numerics.reference n r) = true) :
    dequantFinite (dequantSteps Numerics.reference q r) = true := by
  obtain ⟨hspan, htopa, htopb, htopy⟩ := (dequantFinite_iff _).mp htop
  obtain ⟨hmin, -, -, -, -⟩ := (rangeOk_iff r).mp hr
  obtain ⟨hfn, hun⟩ := u2f_exact hn
  obtain ⟨hfq, huq⟩ := u2f_exact (h.trans_lt hn)
  have hcode : Below (u2f q) (u2f n) := by
    rw [Below, huq, hun]
    exact ⟨hfq, mul_nonneg (Int.natCast_nonneg q) (Int.natCast_nonneg _),
      mul_le_mul_of_nonneg_right (Int.ofNat_le.mpr h) (Int.natCast_nonneg _)⟩
  have ha := fmul_below hcode hfn hspan (span_pos hr hspan) htopa
  obtain ⟨hb, hb0, hble⟩ := fdiv_below ha htopa (u2f_rangeN hr).1 (u2f_rangeN_pos hr) htopb
  have hy : F64.finite (fadd (dequantSteps Numerics.reference q r).b r.min) = true := by
    rcases le_total 0 (F64.units (dequantSteps Numerics.reference q r).b + F64.units r.min) with hpos | hneg
    · exact finite_of_threshold (fadd_overflow_iff hb hmin) (fadd_overflow_iff htopb hmin)
        (abs_le_abs_of_nonneg hpos (Int.add_le_add_right hble _)) htopy
    · have hposZero : F64.finite (fadd (signedZero false) r.min) = true := by
        rw [fadd_posZero hmin]
        split
        · decide
        · exact hmin
      refine finite_of_threshold (fadd_overflow_iff hb hmin) (fadd_overflow_iff (finite_signedZero false) hmin)
        (abs_le_abs_of_nonpos hneg ?_) hposZero
      exact Int.add_le_add_right hb0 _
  exact (dequantFinite_iff _).mpr ⟨hspan, ha.1, hb, hy⟩

end

end Sys2Proof.Machine

/-! PROOFS. How far rounding moves a quotient (00_scope.md R14): half a quantum at most, and a binary64 value below the
rounded quotient lies half a quantum below the exact one. -/

namespace Sys2Proof.Machine

section
variable {p p' q : Nat}

theorem quantumExp_mono (h : p ≤ p') : quantumExp p q ≤ quantumExp p' q := by
  unfold quantumExp
  rw [Nat.log2_eq_log_two, Nat.log2_eq_log_two]
  exact Nat.sub_le_sub_right (Nat.log_mono_right (Nat.div_le_div_right h)) _

/-- A quantum is one unit, or the quotient holds 2^52 quanta. -/
theorem quantum_le (p q : Nat) : quantumExp p q = 0 ∨ 2 ^ 52 * (q * 2 ^ quantumExp p q) ≤ p := by
  obtain ⟨-, hfull⟩ := wholeQuanta_bounds (p := p) (q := q)
  refine hfull.imp_right fun h => ?_
  have hwhole : wholeQuanta p q * (q * 2 ^ quantumExp p q) ≤ p := Nat.div_mul_le_self p _
  exact (Nat.mul_le_mul_right _ h).trans hwhole

theorem roundQuot_half_quantum (hq : 0 < q) :
    2 * (q * roundQuot p q) ≤ 2 * p + q * 2 ^ quantumExp p q
      ∧ 2 * p ≤ 2 * (q * roundQuot p q) + q * 2 ^ quantumExp p q := by
  have hp := quanta_add_rem (p := p) (q := q)
  have hround : q * roundQuot p q = roundedQuanta p q * (q * 2 ^ quantumExp p q) := by rw [roundQuot_eq]; ring
  rcases roundedQuanta_cases p q with ⟨hup, hval⟩ | ⟨hdown, hval⟩
  · have hrem := remQuanta_lt (p := p) hq
    rw [hval, Nat.add_mul, Nat.one_mul] at hround
    omega
  · rw [hval] at hround
    omega

/-- A value below `w` quanta lies half a quantum below them, or lower (its own quantum may be half as large). -/
theorem scaled_lt_quanta {s i w k : Nat} (hs : s < 2 ^ 53) (hw : k = 0 ∨ 2 ^ 52 ≤ w) (h : s * 2 ^ i < w * 2 ^ k) :
    2 * (s * 2 ^ i) + 2 ^ k ≤ 2 * (w * 2 ^ k) := by
  rcases Nat.lt_or_ge (i + 1) k with hlow | hhigh
  · have hsmall : s * 2 ^ i ≤ 2 ^ 53 * 2 ^ i := Nat.mul_le_mul_right _ hs.le
    have hpow : 2 ^ (i + 2) ≤ 2 ^ k := Nat.pow_le_pow_right (by norm_num) hlow
    have hlarge : 2 ^ 52 * 2 ^ k ≤ w * 2 ^ k := Nat.mul_le_mul_right _ (by omega)
    rw [Nat.pow_add] at hpow
    omega
  · obtain ⟨d, hd⟩ := Nat.exists_eq_add_of_le hhigh
    have hdouble : 2 * (s * 2 ^ i) = s * 2 ^ d * 2 ^ k := by
      calc 2 * (s * 2 ^ i) = s * 2 ^ (i + 1) := by ring
        _ = s * 2 ^ d * 2 ^ k := by rw [hd]; ring
    have hmultiple : (s * 2 ^ d + 1) * 2 ^ k ≤ 2 * w * 2 ^ k := by
      refine Nat.mul_le_mul_right _ (Nat.lt_of_mul_lt_mul_right (a := 2 ^ k) ?_)
      rw [← hdouble, mul_assoc]
      omega
    rw [Nat.add_mul, ← hdouble, mul_assoc] at hmultiple
    omega

/-- A value below the rounded quotient lies half a quantum below the exact quotient. -/
theorem add_quantum_le_of_lt_roundQuot {s i : Nat} (hs : s < 2 ^ 53) (h : s * 2 ^ i < roundQuot p q) :
    2 * (q * (s * 2 ^ i)) + q * 2 ^ quantumExp p q ≤ 2 * p := by
  have hp := quanta_add_rem (p := p) (q := q)
  obtain ⟨-, hfull⟩ := wholeQuanta_bounds (p := p) (q := q)
  rw [roundQuot_eq] at h
  rcases roundedQuanta_cases p q with ⟨hup, hval⟩ | ⟨-, hval⟩ <;> rw [hval] at h
  · have hwhole : s * 2 ^ i ≤ wholeQuanta p q * 2 ^ quantumExp p q :=
      (scaled_outside_quantum hs).resolve_right (not_le.mpr h)
    have hscaled := Nat.mul_le_mul_left q hwhole
    rw [mul_left_comm q (wholeQuanta p q)] at hscaled
    omega
  · have hscaled := Nat.mul_le_mul_left q (scaled_lt_quanta hs hfull h)
    rw [Nat.mul_add, mul_left_comm, mul_left_comm q 2, mul_left_comm q (wholeQuanta p q)] at hscaled
    omega

/-- A value that lies above one rounded quotient and below the next exceeds it by no more than the exact quotients
differ: both roundings together move by less than the quantum in between. -/
theorem lt_roundQuot_gap (hq : 0 < q) {s i : Nat} (hs : s < 2 ^ 53) (hle : p ≤ p') (h : s * 2 ^ i < roundQuot p' q) :
    q * (s * 2 ^ i) + p ≤ q * roundQuot p q + p' := by
  have hbelow := add_quantum_le_of_lt_roundQuot hs h
  obtain ⟨-, hhalf⟩ := roundQuot_half_quantum (p := p) hq
  have hquantum : q * 2 ^ quantumExp p q ≤ q * 2 ^ quantumExp p' q :=
    Nat.mul_le_mul_left q (Nat.pow_le_pow_right (by norm_num) (quantumExp_mono hle))
  omega

end

end Sys2Proof.Machine

/-! PROOFS. The gain ranges TX_KP and TX_KD (00_scope.md R7, 40_scalar_quantizer.md R100, R101): they start at 0, and
the number of steps is a multiple of the span, so that a step is `1 / g`. -/

namespace Sys2Proof.Machine

/-- A range from 0 to the integer `S` in steps of `1 / g`, on which the product with `N` undoes the rounding of a code's
value: `fl (fl (t / g) * N) = t * S`. -/
structure GainRange (r : ScalarRange) (g S : Nat) : Prop where
  ok : rangeOk Numerics.reference r = true
  quantTop : quantFinite r.max (quantSteps Numerics.reference r.max r) = true
  dequantTop : dequantFinite (dequantSteps Numerics.reference (rangeN r) r) = true
  min_units : F64.units r.min = 0
  max_units : F64.units r.max = S * F64.one
  steps : rangeN r = g * S
  small : g * S * S < 2 ^ 52
  product_exact : ∀ t ≤ g * S, roundQuot (roundQuot (t * F64.one) g * (g * S)) 1 = t * S * F64.one

/-! ### Multiples of 1.0 -/

theorem one_eq_mul_pow {e : Nat} (he : e ≤ 1074) : ∃ j, F64.one = 2 ^ e * 2 ^ j :=
  ⟨1074 - e, by rw [← pow_add, Nat.add_sub_cancel' he]; rfl⟩

theorem roundQuot_one_exact {q t : Nat} (hq : 0 < q) (ht : t < 2 ^ 53) :
    roundQuot (t * F64.one * q) q = t * F64.one := roundQuot_exact (j := 1074) hq ht

/-- The product of two integers is exact below 2^53. -/
theorem roundSigned_whole_product {m n : Nat} (h : m * n < 2 ^ 53) :
    roundSigned (m * F64.one * (n * F64.one)) F64.one = (m * n : Nat) * F64.one := by
  have hproduct : (m * F64.one * (n * F64.one) : Int) = (m * n * F64.one : Nat) * F64.one := by push_cast; ring
  have hround := roundSigned_mul_one (m * n * F64.one) 1
  have hexact := roundQuot_one_exact Nat.one_pos h
  rw [Nat.mul_one] at hexact
  rw [Nat.one_mul, hexact] at hround
  rw [hproduct, hround, Nat.cast_mul (m * n)]

section
variable {r : ScalarRange} {g S : Nat} (h : GainRange r g S)
include h

theorem GainRange.g_pos : 0 < g := Nat.pos_of_mul_pos_right (h.steps ▸ (rangeN_lt h.ok).1)

theorem GainRange.S_pos : 0 < S := Nat.pos_of_mul_pos_left (h.steps ▸ (rangeN_lt h.ok).1)

theorem GainRange.span_finite : F64.finite (fsub r.max r.min) = true := by
  obtain ⟨-, hspan, -, -, -⟩ := (quantFinite_iff _ _).mp h.quantTop
  exact hspan

theorem GainRange.span_units : F64.units (fsub r.max r.min) = S * F64.one := by
  obtain ⟨hmin, hmax, -, -, -⟩ := (rangeOk_iff r).mp h.ok
  rw [units_fsub hmax hmin h.span_finite, h.min_units, sub_zero, roundSigned_units, h.max_units]

theorem GainRange.span_mag : F64.mag (fsub r.max r.min) = S * F64.one := by
  have hmag := mag_of_units_nonneg (span_pos h.ok h.span_finite).le
  rw [h.span_units] at hmag
  exact_mod_cast hmag

/-! ### What QUANT and DEQUANT compute -/

/-- QUANT of `x` rounds `x * N`, and that over `S`. -/
theorem GainRange.quotient {x : F64} (hx : 0 ≤ F64.units x) :
    quotientUnits r (F64.units x) = (roundQuot (roundQuot (F64.mag x * (g * S)) 1) S : Nat) := by
  have hm : roundSigned (F64.mag x * (rangeN r * F64.one)) F64.one = (roundQuot (F64.mag x * (g * S)) 1 : Nat) := by
    rw [← roundSigned_mul_one, Nat.one_mul, h.steps, Nat.cast_mul (F64.mag x), mul_assoc]
  rw [quotientUnits, h.min_units, sub_zero, roundSigned_units, ← mag_of_units_nonneg hx]
  simp only [hm, h.span_mag, roundSigned_mul_one]

/-- DEQUANT of `t` rounds `t / g`. -/
theorem GainRange.value {t : Nat} (ht : t ≤ g * S) :
    F64.finite (dequantSteps Numerics.reference t r).y = true
      ∧ F64.units (dequantSteps Numerics.reference t r).y = (roundQuot (t * F64.one) g : Nat) := by
  have hN := rangeN_lt h.ok
  have htS : t * S < 2 ^ 53 := (Nat.mul_le_mul_right S ht).trans_lt (h.small.trans (by norm_num))
  obtain ⟨hmin, -, -, -, -⟩ := (rangeOk_iff r).mp h.ok
  obtain ⟨hfN, huN⟩ := u2f_rangeN h.ok
  have hmagN := mag_of_units_nonneg (u2f_rangeN_pos h.ok).le
  rw [huN, ← Nat.cast_mul, Int.natCast_inj] at hmagN
  obtain ⟨hft, hut⟩ := u2f_exact (n := t) (by rw [h.steps] at hN; omega)
  obtain ⟨hspan, hfa, hfb, hfy⟩ := (dequantFinite_iff _).mp
    (dequantFinite_of_le h.ok (hN.2.trans (by norm_num)) (h.steps ▸ ht) h.dequantTop)
  have ha : F64.units (dequantSteps Numerics.reference t r).a = (t * S : Nat) * F64.one := by
    have hspanUnits : F64.units (dequantSteps Numerics.reference t r).span = S * F64.one := h.span_units
    refine (units_fmul hft hspan hfa).trans ?_
    rw [hut, hspanUnits, roundSigned_whole_product htS]
  have hb : F64.units (dequantSteps Numerics.reference t r).b = (roundQuot (t * F64.one) g : Nat) := by
    refine (units_fdiv hfa hfN (u2f_rangeN_pos h.ok) hfb).trans ?_
    rw [ha, hmagN, ← Nat.cast_mul, roundSigned_mul_one, h.steps, mul_right_comm, roundQuot_mul_right _ _ h.S_pos]
  refine ⟨hfy, (units_fadd hfb hmin hfy).trans ?_⟩
  rw [h.min_units, add_zero, roundSigned_units, hb]

/-! ### Codes re-encode to themselves (R101) -/

theorem GainRange.value_inRange {t : Nat} (ht : t ≤ g * S) :
    InRange (dequantSteps Numerics.reference t r).y r := by
  obtain ⟨hf, hy⟩ := h.value ht
  have hSlt : S < 2 ^ 53 := by
    have := Nat.le_mul_of_pos_left S (Nat.mul_pos h.g_pos h.S_pos)
    have := h.small
    omega
  have htop : roundQuot (t * F64.one) g ≤ S * F64.one := by
    rw [← roundQuot_one_exact h.g_pos hSlt, mul_right_comm, mul_comm S g]
    exact roundQuot_mono h.g_pos (Nat.mul_le_mul_right _ ht)
  rw [InRange, hy, h.min_units, h.max_units]
  exact ⟨hf, Int.natCast_nonneg _, by exact_mod_cast htop⟩

/-- The quotient of a code's value is the code: only one of the roundings is not exact, and the next undoes it. -/
theorem GainRange.quotient_value {t : Nat} (ht : t ≤ g * S) :
    quotientUnits r (F64.units (dequantSteps Numerics.reference t r).y) = (t * F64.one : Nat) := by
  obtain ⟨-, hy⟩ := h.value ht
  have htlt : t < 2 ^ 53 := by
    have := (rangeN_lt h.ok).2
    rw [h.steps] at this
    omega
  have hmag : F64.mag (dequantSteps Numerics.reference t r).y = roundQuot (t * F64.one) g := by
    rw [← units_natAbs, hy, Int.natAbs_natCast]
  rw [h.quotient (hy ▸ Int.natCast_nonneg _), hmag, h.product_exact t ht, mul_right_comm,
    roundQuot_one_exact h.S_pos htlt]

theorem GainRange.quantize_value (strict : Bool) {t : Nat} (ht : t ≤ g * S) :
    quantize Numerics.reference strict (dequantSteps Numerics.reference t r).y r = .ok (t : Int) := by
  rw [quantize_of_inRange strict h.ok h.quantTop (h.value_inRange ht), h.quotient_value ht, Nat.cast_mul,
    Int.mul_tdiv_cancel _ (Int.natCast_pos.mpr F64.one_pos).ne']

/-! ### The round trip (R100) -/

/-- The quotient does not pass a multiple of a unit that the exact quotient `g * x` does not pass. -/
theorem GainRange.quotient_le {x : F64} (hx : 0 ≤ F64.units x) {n j : Nat} (hn : n * S < 2 ^ 53)
    (hle : g * F64.mag x ≤ n * 2 ^ j) : quotientUnits r (F64.units x) ≤ (n * 2 ^ j : Nat) := by
  have hn' : n < 2 ^ 53 := (Nat.le_mul_of_pos_right n h.S_pos).trans_lt hn
  have hm : roundQuot (F64.mag x * (g * S)) 1 ≤ n * S * 2 ^ j := by
    refine roundQuot_le Nat.one_pos hn ?_
    calc F64.mag x * (g * S) = g * F64.mag x * S := by ring
      _ ≤ n * 2 ^ j * S := Nat.mul_le_mul_right S hle
      _ = n * S * 2 ^ j * 1 := by ring
  rw [h.quotient hx, Int.ofNat_le]
  exact roundQuot_le h.S_pos hn' (hm.trans_eq (mul_right_comm n S _))

/-- A number whose quotient reaches `t` is at most half a step below `t / g`. -/
theorem GainRange.le_of_quotient {x : F64} (hx : 0 ≤ F64.units x) {t : Nat} (ht : t ≤ g * S)
    (hq : (t * F64.one : Nat) ≤ quotientUnits r (F64.units x)) :
    2 * (t * F64.one) ≤ 2 * (g * F64.mag x) + F64.one := by
  obtain ⟨j, hone⟩ := one_eq_mul_pow (e := 1) (by norm_num)
  have hhalf : 0 < 2 ^ j := by positivity
  have hscale : t * F64.one = 2 * t * 2 ^ j := by rw [hone]; ring
  rw [pow_one] at hone
  by_contra hfar
  cases t with
  | zero => omega
  | succ k =>
    have hwidth : (2 * k + 1) * S < 2 ^ 53 := by
      calc (2 * k + 1) * S ≤ 2 * (k + 1) * S := Nat.mul_le_mul_right S (by omega)
        _ = 2 * ((k + 1) * S) := mul_assoc 2 (k + 1) S
        _ ≤ 2 * (g * S * S) := Nat.mul_le_mul_left 2 (Nat.mul_le_mul_right S ht)
        _ < 2 ^ 53 := by have := h.small; omega
    have hstep : 2 * (k + 1) * 2 ^ j = (2 * k + 1) * 2 ^ j + 2 ^ j := by ring
    have hle := h.quotient_le hx hwidth (j := j) (by omega)
    omega

/-- The value of a code is at most half a step above `t / g`. -/
theorem GainRange.value_le {t : Nat} (ht : t ≤ g * S) :
    2 * (g * roundQuot (t * F64.one) g) ≤ 2 * (t * F64.one) + F64.one := by
  have hlt : g < 2 ^ 52 ∧ t < 2 ^ 52 := by
    have := Nat.le_mul_of_pos_right (g * S) h.S_pos
    have := Nat.le_mul_of_pos_right g h.S_pos
    have := h.small
    omega
  have hone : 2 ^ 52 ≤ F64.one := by
    obtain ⟨j, hj⟩ := one_eq_mul_pow (e := 52) (by norm_num)
    rw [hj]
    exact Nat.le_mul_of_pos_right _ (by positivity)
  have hquantum : g * 2 ^ quantumExp (t * F64.one) g ≤ F64.one := by
    rcases quantum_le (t * F64.one) g with hunit | hle
    · rw [hunit, pow_zero, Nat.mul_one]
      omega
    · have := Nat.mul_le_mul_right F64.one hlt.2.le
      omega
  obtain ⟨hle, -⟩ := roundQuot_half_quantum (p := t * F64.one) h.g_pos
  omega

/-- A number whose quotient stays below `t + 1` is at most one step above the value of `t`: it lies below the value of
`t + 1`, since that one re-encodes to `t + 1`. -/
theorem GainRange.le_value_add {x : F64} (hx : InRange x r) {t : Nat} (ht : t ≤ g * S)
    (hq : quotientUnits r (F64.units x) < ((t + 1) * F64.one : Nat)) :
    g * F64.mag x ≤ g * roundQuot (t * F64.one) g + F64.one := by
  obtain ⟨-, hlow, hhigh⟩ := hx
  rw [h.min_units] at hlow
  rw [h.max_units, ← mag_of_units_nonneg hlow] at hhigh
  obtain ⟨s, i, hs, hmag⟩ := mag_eq_scaled x
  rcases Nat.lt_or_eq_of_le ht with hbelow | rfl
  · have hnext : F64.mag x < roundQuot ((t + 1) * F64.one) g := by
      by_contra hge
      obtain ⟨-, hy⟩ := h.value hbelow
      have hmono := quotientUnits_mono h.ok h.span_finite
        (show F64.units (dequantSteps Numerics.reference (t + 1) r).y ≤ F64.units x by
          rw [hy, ← mag_of_units_nonneg hlow]; exact_mod_cast not_lt.mp hge)
      rw [h.quotient_value hbelow] at hmono
      exact absurd hq (not_lt.mpr hmono)
    rw [hmag] at hnext ⊢
    have hgap := lt_roundQuot_gap h.g_pos hs (Nat.mul_le_mul_right F64.one (Nat.le_succ t)) hnext
    rw [Nat.succ_mul] at hgap
    omega
  · have htop : F64.mag x ≤ S * F64.one := by exact_mod_cast hhigh
    have hle : F64.mag x ≤ roundQuot (g * S * F64.one) g := by
      rw [hmag] at htop ⊢
      refine le_roundQuot h.g_pos hs ?_
      calc s * 2 ^ i * g ≤ S * F64.one * g := Nat.mul_le_mul_right g htop
        _ = g * S * F64.one := by ring
    exact (Nat.mul_le_mul_left g hle).trans (Nat.le_add_right _ _)

/-- The round trip moves a number in range by a step at most. -/
theorem GainRange.roundTrip {x : F64} (hx : InRange x r) : ∃ t : Nat,
    (∀ strict : Bool, quantize Numerics.reference strict x r = .ok (t : Int))
    ∧ |F64.units (dequantSteps Numerics.reference t r).y - F64.units x| * g ≤ F64.one := by
  have ⟨_, hlow, hhigh⟩ := hx
  rw [h.min_units] at hlow
  rw [h.max_units, ← mag_of_units_nonneg hlow] at hhigh
  obtain ⟨V, hV⟩ : ∃ V : Nat, quotientUnits r (F64.units x) = V := ⟨_, h.quotient hlow⟩
  have ht : V / F64.one ≤ g * S := by
    have hexact : g * F64.mag x ≤ g * S * F64.one := by
      rw [mul_assoc]
      exact Nat.mul_le_mul_left g (by exact_mod_cast hhigh)
    have hle := h.quotient_le hlow (j := 1074) (h.small.trans (by norm_num)) hexact
    rw [hV, Int.ofNat_le] at hle
    exact Nat.div_le_of_le_mul (hle.trans_eq (mul_comm _ _))
  have hreach : (V / F64.one * F64.one : Nat) ≤ quotientUnits r (F64.units x) := by
    rw [hV]
    exact_mod_cast Nat.div_mul_le_self V F64.one
  have hstay : quotientUnits r (F64.units x) < ((V / F64.one + 1) * F64.one : Nat) := by
    rw [hV, mul_comm]
    exact_mod_cast Nat.lt_mul_div_succ V F64.one_pos
  refine ⟨V / F64.one, fun strict => ?_, ?_⟩
  · rw [quantize_of_inRange strict h.ok h.quantTop hx, hV]
    rfl
  · have hlower := h.le_of_quotient hlow ht hreach
    have hvalue := h.value_le ht
    have hupper := h.le_value_add hx ht hstay
    obtain ⟨-, hy⟩ := h.value ht
    rw [hy, ← mag_of_units_nonneg hlow, mul_comm, ← Nat.abs_cast g, ← abs_mul, mul_sub, ← Nat.cast_mul,
      ← Nat.cast_mul, abs_le]
    omega

end

/-! ### The two gain ranges -/

theorem gainRange_txKp : GainRange txKp 1 1023 where
  ok := by decide +kernel
  quantTop := by decide +kernel
  dequantTop := by decide +kernel
  min_units := by decide
  max_units := by decide +kernel
  steps := rfl
  small := by norm_num
  product_exact t ht := by
    have hvalue := roundQuot_one_exact Nat.one_pos (t := t) (by omega)
    have hproduct := roundQuot_one_exact Nat.one_pos (t := t * 1023) (by omega)
    rw [Nat.mul_one] at hvalue hproduct
    rw [hvalue, Nat.one_mul, mul_right_comm, hproduct]

/-- The rounding of `t / 5` is undone for each code of 8 bits. This is evaluated, since it is no law of rounding: R101
names ranges on which some codes do not re-encode to themselves. -/
theorem txKd_product_exact :
    ∀ t < 256, roundQuot (roundQuot (t * F64.one) 5 * (5 * 51)) 1 = t * 51 * F64.one := by
  decide +kernel

theorem gainRange_txKd : GainRange txKd 5 51 where
  ok := by decide +kernel
  quantTop := by decide +kernel
  dequantTop := by decide +kernel
  min_units := by decide
  max_units := by decide +kernel
  steps := rfl
  small := by norm_num
  product_exact t ht := txKd_product_exact t (by omega)

/-- Settles O29: `N` is the code's bound on both ranges. -/
theorem gainCodesReencodeToThemselves : Obligations.GainCodesReencodeToThemselves := by
  unfold Obligations.GainCodesReencodeToThemselves
  intro strict
  exact ⟨fun q hq => gainRange_txKp.quantize_value strict (by omega),
    fun q hq => gainRange_txKd.quantize_value strict (by omega)⟩

/-- Settles O31: a step is `span / N` on both ranges. -/
theorem roundTripBoundHoldsOnGains : Obligations.RoundTripBoundHoldsOnGains := by
  unfold Obligations.RoundTripBoundHoldsOnGains
  intro r hr x hx
  obtain ⟨g, S, h⟩ : ∃ g S, GainRange r g S := by
    simp only [List.mem_cons, List.not_mem_nil, or_false] at hr
    rcases hr with rfl | rfl
    · exact ⟨1, 1023, gainRange_txKp⟩
    · exact ⟨5, 51, gainRange_txKd⟩
  obtain ⟨t, hquant, hstep⟩ := h.roundTrip hx
  refine ⟨t, hquant, ?_⟩
  have hN : (2 ^ r.bits.toNat - 1 : Int) = g * S := by
    have := h.steps
    have hpow := Nat.one_le_two_pow (n := r.bits.toNat)
    unfold rangeN at this
    rw [← Nat.cast_mul, ← this]
    push_cast [hpow]
    rfl
  rw [hN, h.max_units, h.min_units, sub_zero, ← mul_assoc, mul_comm (S : Int)]
  exact mul_le_mul_of_nonneg_right hstep (Int.natCast_nonneg S)

/-! ### The send ranges of position and velocity (R100, U18) -/

/-- `x` is in range, its code is `t`, and the value of `t` is more than a step away (R100). -/
def BreaksRoundTrip (r : ScalarRange) (x : F64) (t : Nat) : Prop :=
  InRange x r ∧ quantFinite x (quantSteps Numerics.reference x r) = true
    ∧ f2i (quantSteps Numerics.reference x r).v = (t : Int)
    ∧ F64.units r.max - F64.units r.min <
      |F64.units (dequantSteps Numerics.reference t r).y - F64.units x| * (2 ^ r.bits.toNat - 1)

/-- A number just below code 20071, near -15.5. -/
theorem txPos_breaksRoundTrip : BreaksRoundTrip txPos 0xC02EFF6EFF6EFF6F#64 20070 := by
  unfold BreaksRoundTrip InRange
  decide +kernel

/-- A number just below code 4917, near -16. -/
theorem txVel_breaksRoundTrip : BreaksRoundTrip txVel 0xC02FFABFEAFFABFF#64 4916 := by
  unfold BreaksRoundTrip InRange
  decide +kernel

/-- Settles O30, by one number of each range. -/
theorem roundTripBoundFailsOnPositionAndVelocity : Obligations.RoundTripBoundFailsOnPositionAndVelocity := by
  unfold Obligations.RoundTripBoundFailsOnPositionAndVelocity
  intro r hr
  obtain ⟨x, t, hx, hf, hcode, hfar⟩ : ∃ x t, BreaksRoundTrip r x t := by
    simp only [List.mem_cons, List.not_mem_nil, or_false] at hr
    rcases hr with rfl | rfl
    · exact ⟨_, _, txPos_breaksRoundTrip⟩
    · exact ⟨_, _, txVel_breaksRoundTrip⟩
  refine ⟨x, t, hx, fun strict => ?_, hfar⟩
  exact (quantize_of_not_outside strict hf (outside_of_inRange hx)).trans (congrArg Except.ok hcode)

end Sys2Proof.Machine

/-! PROOFS. The send layout (41_frame_packer.md R111 to R113): the port word is the sum of the five codes, each at its
offset, so each field is read back as a slice of it. -/

namespace Sys2Proof.Machine

/-! ### Bytes of the word -/

theorem append_toNat {m n : Nat} (x : BitVec m) (y : BitVec n) : (x ++ y).toNat = x.toNat * 2 ^ n + y.toNat := by
  rw [BitVec.toNat_append, ← Nat.shiftLeft_add_eq_or_of_lt y.isLt, Nat.shiftLeft_eq]

theorem payloadOfBytes_toNat (b0 b1 b2 b3 b4 b5 b6 b7 : Byte) :
    (payloadOfBytes b0 b1 b2 b3 b4 b5 b6 b7).toNat =
      b0.toNat + b1.toNat * 2 ^ 8 + b2.toNat * 2 ^ 16 + b3.toNat * 2 ^ 24 + b4.toNat * 2 ^ 32 + b5.toNat * 2 ^ 40
        + b6.toNat * 2 ^ 48 + b7.toNat * 2 ^ 56 := by
  simp only [payloadOfBytes, append_toNat]
  omega

theorem slice_toNat {w : Nat} (x : BitVec w) (off len : Nat) :
    (x.extractLsb' off len).toNat = x.toNat / 2 ^ off % 2 ^ len := by
  rw [BitVec.extractLsb'_toNat, Nat.shiftRight_eq_div_pow]

theorem and_0x3F_toNat (b : Byte) : (b &&& 0x3F#8).toNat = b.toNat % 2 ^ 6 :=
  Nat.and_two_pow_sub_one_eq_mod b.toNat 6

theorem and_0x03_toNat (b : Byte) : (b &&& 0x03#8).toNat = b.toNat % 2 ^ 2 :=
  Nat.and_two_pow_sub_one_eq_mod b.toNat 2

/-- Byte 3 is the one that two codes share: six bits of velocity below two bits of kp. -/
theorem sendByte3_toNat (c : SendCodes) :
    (sendByte3 c).toNat = c.vel.toNat / 2 ^ 8 % 2 ^ 6 + c.kp.toNat % 2 ^ 2 * 2 ^ 6 := by
  have hvel : (BitVec.setWidth 8 (c.vel.extractLsb' 8 6) &&& 0x3F#8).toNat = c.vel.toNat / 2 ^ 8 % 2 ^ 6 := by
    rw [and_0x3F_toNat, BitVec.toNat_setWidth, slice_toNat]
    omega
  have hkp : ((BitVec.setWidth 8 c.kp &&& 0x03#8) <<< 6).toNat = (c.kp.toNat % 2 ^ 2) <<< 6 := by
    rw [BitVec.toNat_shiftLeft, and_0x03_toNat, BitVec.toNat_setWidth, Nat.shiftLeft_eq, Nat.shiftLeft_eq]
    omega
  rw [sendByte3, BitVec.or_comm, BitVec.toNat_or, hvel, hkp,
    ← Nat.shiftLeft_add_eq_or_of_lt (Nat.mod_lt _ (by decide)), Nat.shiftLeft_eq, Nat.add_comm]

/-- The payload as a number (R112): the five codes, each reduced to its width, end to end from bit 0. -/
theorem sendLayout_toNat (c : SendCodes) :
    (sendLayout c).toNat =
      c.pos.toNat % 2 ^ 16 + c.vel.toNat % 2 ^ 14 * 2 ^ 16 + c.kp.toNat % 2 ^ 10 * 2 ^ 30
        + c.kd.toNat % 2 ^ 8 * 2 ^ 40 + c.trq.toNat % 2 ^ 16 * 2 ^ 48 := by
  rw [sendLayout, payloadOfBytes_toNat, sendByte3_toNat]
  simp only [sendByte0, sendByte1, sendByte2, sendByte4, sendByte5, sendByte6, sendByte7, slice_toNat]
  omega

/-! ### The fields of the word (R112) -/

theorem slice_eq_setWidth {w n : Nat} {x : BitVec w} {y : BitVec n} {off len : Nat}
    (h : x.toNat / 2 ^ off % 2 ^ len = y.toNat % 2 ^ len) : x.extractLsb' off len = y.setWidth len := by
  apply BitVec.eq_of_toNat_eq
  rw [slice_toNat, BitVec.toNat_setWidth, h]

theorem sendLayout_pos (c : SendCodes) : (sendLayout c).extractLsb' 0 16 = c.pos.setWidth 16 :=
  slice_eq_setWidth (by rw [sendLayout_toNat]; omega)

theorem sendLayout_vel (c : SendCodes) : (sendLayout c).extractLsb' 16 14 = c.vel.setWidth 14 :=
  slice_eq_setWidth (by rw [sendLayout_toNat]; omega)

theorem sendLayout_kp (c : SendCodes) : (sendLayout c).extractLsb' 30 10 = c.kp.setWidth 10 :=
  slice_eq_setWidth (by rw [sendLayout_toNat]; omega)

theorem sendLayout_kd (c : SendCodes) : (sendLayout c).extractLsb' 40 8 = c.kd.setWidth 8 :=
  slice_eq_setWidth (by rw [sendLayout_toNat]; omega)

theorem sendLayout_trq (c : SendCodes) : (sendLayout c).extractLsb' 48 16 = c.trq.setWidth 16 :=
  slice_eq_setWidth (by rw [sendLayout_toNat]; omega)

/-- The OR of the fields, each at its offset: every one begins where the ones before it end. -/
theorem sendLayout_eq_or (c : SendCodes) :
    sendLayout c =
      (c.pos.setWidth 16).setWidth 64 ||| (c.vel.setWidth 14).setWidth 64 <<< 16
        ||| (c.kp.setWidth 10).setWidth 64 <<< 30 ||| (c.kd.setWidth 8).setWidth 64 <<< 40
        ||| (c.trq.setWidth 16).setWidth 64 <<< 48 := by
  have hjoin := slice_or_shiftLeft_slice (sendLayout c) 64 0
  rw [← sendLayout_pos, ← sendLayout_vel, ← sendLayout_kp, ← sendLayout_kd, ← sendLayout_trq]
  rw [hjoin 16 14, hjoin 30 10, hjoin 40 8, hjoin 48 16, BitVec.setWidth_eq, BitVec.extractLsb'_eq_self]

/-- Settles O18: the OR joins adjacent slices of the word, the sum is the word as a number. -/
theorem sendBytesAreTheSendWord : Obligations.SendBytesAreTheSendWord := by
  unfold Obligations.SendBytesAreTheSendWord
  exact fun c => ⟨sendLayout_eq_or c, sendLayout_toNat c⟩

/-! ### The bits of the word (R113) -/

/-- A bit of a word is a bit of every slice around it. -/
theorem getLsbD_eq_slice {w : Nat} (x : BitVec w) {off len i : Nat} (hlow : off ≤ i) (hhigh : i < off + len) :
    x.getLsbD i = (x.extractLsb' off len).getLsbD (i - off) := by
  have hin : i - off < len := by omega
  simp [hin, Nat.add_sub_cancel' hlow]

theorem getLsbD_of_slice {w n : Nat} {x : BitVec w} {y : BitVec n} {off len i : Nat}
    (h : x.extractLsb' off len = y.setWidth len) (hlow : off ≤ i) (hhigh : i < off + len) :
    x.getLsbD i = y.getLsbD (i - off) := by
  have hin : i - off < len := by omega
  rw [getLsbD_eq_slice x hlow hhigh, h, BitVec.getLsbD_setWidth, decide_eq_true hin, Bool.true_and]

theorem sendLayout_getLsbD (c : SendCodes) (i : Nat) :
    (sendLayout c).getLsbD i =
      if i < 16 then c.pos.getLsbD i else if i < 30 then c.vel.getLsbD (i - 16)
      else if i < 40 then c.kp.getLsbD (i - 30) else if i < 48 then c.kd.getLsbD (i - 40)
      else if i < 64 then c.trq.getLsbD (i - 48) else false := by
  split_ifs
  · exact getLsbD_of_slice (sendLayout_pos c) (by omega) (by omega)
  · exact getLsbD_of_slice (sendLayout_vel c) (by omega) (by omega)
  · exact getLsbD_of_slice (sendLayout_kp c) (by omega) (by omega)
  · exact getLsbD_of_slice (sendLayout_kd c) (by omega) (by omega)
  · exact getLsbD_of_slice (sendLayout_trq c) (by omega) (by omega)
  · exact BitVec.getLsbD_of_ge _ _ (by omega)

/-- The low six bits of byte 3 are velocity's alone, whatever kp is. -/
theorem sendLayout_byte3_low (c : SendCodes) :
    (payloadByte (sendLayout c) 3 &&& 0x3F#8).toNat = c.vel.toNat / 2 ^ 8 % 2 ^ 6 := by
  rw [and_0x3F_toNat, payloadByte_toNat, byteOf, sendLayout_toNat]
  omega

/-- Settles O19, bit by bit; byte 3 keeps its low six bits under any change of kp. -/
theorem everyPayloadBitComesFromOneCodeBit : Obligations.EveryPayloadBitComesFromOneCodeBit := by
  unfold Obligations.EveryPayloadBitComesFromOneCodeBit
  refine ⟨sendLayout_getLsbD, fun c k _ => BitVec.eq_of_toNat_eq ?_⟩
  rw [sendLayout_byte3_low, sendLayout_byte3_low]

end Sys2Proof.Machine

/-! PROOFS. PACK and BUILD.CONTROL (41_frame_packer.md R110 to R121): what QUANT of each field answers decides what the
transaction does. -/

namespace Sys2Proof.Machine

/-! ### QUANT of one field (R94, R99, R169) -/

section
variable {x : F64} {r : ScalarRange} {strict : Bool}

theorem outside_iff (x : F64) (r : ScalarRange) :
    outside Numerics.reference x r = true ↔ F64.units x < F64.units r.min ∨ F64.units r.max < F64.units x := by
  simp [outside, Numerics.reference, flt]

theorem quantize_nonFinite (strict : Bool) (hf : quantFinite x (quantSteps Numerics.reference x r) = false) :
    quantize Numerics.reference strict x r = .error .nonFinite := by
  rcases quantize_cases Numerics.reference strict x r with ⟨h, -⟩ | ⟨h, -⟩ | ⟨-, h⟩
  · rw [hf] at h; cases h
  · rw [hf] at h; cases h
  · exact h

theorem quantize_outOfRange (hf : quantFinite x (quantSteps Numerics.reference x r) = true)
    (ho : F64.units x < F64.units r.min ∨ F64.units r.max < F64.units x) :
    quantize Numerics.reference true x r = .error .outOfRange := by
  have hout := (outside_iff x r).mpr ho
  rcases quantize_cases Numerics.reference true x r with ⟨-, h, -⟩ | ⟨-, -, h⟩ | ⟨h, -⟩
  · rw [hout] at h; cases h
  · exact h
  · rw [hf] at h; cases h

/-- Without the strict variant the range is not looked at. -/
theorem quantize_of_finite (hf : quantFinite x (quantSteps Numerics.reference x r) = true)
    (hin : strict = true → F64.units r.min ≤ F64.units x ∧ F64.units x ≤ F64.units r.max) :
    quantize Numerics.reference strict x r = .ok (f2i (quantSteps Numerics.reference x r).v) := by
  rcases quantize_cases Numerics.reference strict x r with ⟨-, -, h⟩ | ⟨-, h, -⟩ | ⟨h, -⟩
  · exact h
  · obtain ⟨hs, hout⟩ := (Bool.and_eq_true _ _).mp h
    have := hin hs
    have := (outside_iff x r).mp hout
    omega
  · rw [hf] at h; cases h

end

/-! ### PACK of the five fields (R110, R121) -/

/-- The codes of the five truncated quotients. -/
def quotientCodes (c : MotorCommand) : SendCodes :=
  { pos := codeOf (f2i (quantSteps Numerics.reference c.pos txPos).v)
    vel := codeOf (f2i (quantSteps Numerics.reference c.vel txVel).v)
    trq := codeOf (f2i (quantSteps Numerics.reference c.trq txTrq).v)
    kp := codeOf (f2i (quantSteps Numerics.reference c.kp txKp).v)
    kd := codeOf (f2i (quantSteps Numerics.reference c.kd txKd).v) }

section
variable {strict : Bool} {c : MotorCommand}

theorem forall_commandFields {P : F64 × ScalarRange → Prop} :
    (∀ f ∈ commandFields c, P f) ↔
      P (c.pos, txPos) ∧ P (c.vel, txVel) ∧ P (c.trq, txTrq) ∧ P (c.kp, txKp) ∧ P (c.kd, txKd) := by
  simp [commandFields]

/-- Without an error in a field PACK lays the codes out. -/
theorem packPayload_ok (hf : ∀ f ∈ commandFields c, quantFinite f.1 (quantSteps Numerics.reference f.1 f.2) = true)
    (hin : strict = true → ∀ f ∈ commandFields c,
      F64.units f.2.min ≤ F64.units f.1 ∧ F64.units f.1 ≤ F64.units f.2.max) :
    packPayload Numerics.reference strict c = .ok (sendLayout (quotientCodes c)) := by
  have hcode : ∀ f ∈ commandFields c, quantCode Numerics.reference strict f.1 f.2 =
      .ok (codeOf (f2i (quantSteps Numerics.reference f.1 f.2).v)) := fun f hmem => by
    rw [quantCode_eq, quantize_of_finite (hf f hmem) (fun hs => hin hs f hmem)]
    rfl
  obtain ⟨hpos, hvel, htrq, hkp, hkd⟩ := forall_commandFields.mp hcode
  simp only at hpos hvel htrq hkp hkd
  rw [packPayload, hpos, hvel, htrq, hkp, hkd]
  rfl

/-- Does QUANT of some field raise NonFinite? -/
def anyNonFinite (strict : Bool) (c : MotorCommand) : Bool :=
  (commandFields c).any fun f => raisesNonFinite (quantCode Numerics.reference strict f.1 f.2)

/-- With an error in a field PACK raises one kind: NonFinite if any field does. -/
theorem packPayload_error {f : F64 × ScalarRange} {k : ErrKind} (hmem : f ∈ commandFields c)
    (h : quantize Numerics.reference strict f.1 f.2 = .error k) :
    packPayload Numerics.reference strict c = .error (if anyNonFinite strict c then .nonFinite else .outOfRange) := by
  have hcode : ¬ ∀ f ∈ commandFields c, ∃ t, quantCode Numerics.reference strict f.1 f.2 = .ok t := fun hall => by
    obtain ⟨t, ht⟩ := hall f hmem
    rw [quantCode_eq, h] at ht
    cases ht
  unfold packPayload
  dsimp only
  split
  · next hpos hvel htrq hkp hkd =>
    exact absurd (forall_commandFields.mpr ⟨⟨_, hpos⟩, ⟨_, hvel⟩, ⟨_, htrq⟩, ⟨_, hkp⟩, ⟨_, hkd⟩⟩) hcode
  · simp only [anyNonFinite, commandFields, List.any_cons, List.any_nil, Bool.or_false, Bool.or_assoc]
    split <;> rfl

theorem raisesNonFinite_quantCode (x : F64) (r : ScalarRange) :
    raisesNonFinite (quantCode Numerics.reference strict x r) =
      !quantFinite x (quantSteps Numerics.reference x r) := by
  rw [quantCode_eq]
  rcases quantize_cases Numerics.reference strict x r with ⟨hf, -, h⟩ | ⟨hf, -, h⟩ | ⟨hf, h⟩ <;> rw [hf, h] <;> rfl

theorem packPayload_nonFinite
    (h : ∃ f ∈ commandFields c, quantFinite f.1 (quantSteps Numerics.reference f.1 f.2) = false) :
    packPayload Numerics.reference strict c = .error .nonFinite := by
  obtain ⟨f, hmem, hf⟩ := h
  have hany : anyNonFinite strict c = true :=
    List.any_eq_true.mpr ⟨f, hmem, by rw [raisesNonFinite_quantCode, hf]; rfl⟩
  rw [packPayload_error hmem (quantize_nonFinite strict hf), if_pos hany]

theorem packPayload_outOfRange
    (hf : ∀ f ∈ commandFields c, quantFinite f.1 (quantSteps Numerics.reference f.1 f.2) = true)
    (h : ∃ f ∈ commandFields c, F64.units f.1 < F64.units f.2.min ∨ F64.units f.2.max < F64.units f.1) :
    packPayload Numerics.reference true c = .error .outOfRange := by
  obtain ⟨f, hmem, ho⟩ := h
  have hnone : ¬ anyNonFinite true c = true := by
    rw [anyNonFinite, List.any_eq_true]
    rintro ⟨g, hg, hraises⟩
    rw [raisesNonFinite_quantCode, hf g hg] at hraises
    cases hraises
  rw [packPayload_error hmem (quantize_outOfRange (hf f hmem) ho), if_neg hnone]

end

/-! ### The fields of the payload (R95, R112) -/

/-- The low bits of a code are the quotient modulo their number (R93, R95). -/
theorem codeOf_setWidth (t : Int) {n : Nat} (hn : n ≤ 32) : (codeOf t).setWidth n = BitVec.ofInt n t := by
  have hdvd : ((2 ^ n : Nat) : Int) ∣ (2 ^ 32 : Nat) := Int.natCast_dvd_natCast.mpr (Nat.pow_dvd_pow 2 hn)
  apply BitVec.eq_of_toNat_eq
  rw [BitVec.toNat_setWidth, codeOf, BitVec.toNat_ofInt, BitVec.toNat_ofInt, ← Int.emod_emod_of_dvd t hdvd]
  rw [Int.toNat_emod (Int.emod_nonneg t (by norm_num)) (Int.natCast_nonneg _), Int.toNat_natCast]

/-- Each field of the payload is a truncated quotient modulo the number of its codes. -/
theorem sendLayout_quotientCodes (c : MotorCommand) :
    (sendLayout (quotientCodes c)).extractLsb' 0 16 =
        BitVec.ofInt 16 (f2i (quantSteps Numerics.reference c.pos txPos).v)
      ∧ (sendLayout (quotientCodes c)).extractLsb' 16 14 =
        BitVec.ofInt 14 (f2i (quantSteps Numerics.reference c.vel txVel).v)
      ∧ (sendLayout (quotientCodes c)).extractLsb' 30 10 =
        BitVec.ofInt 10 (f2i (quantSteps Numerics.reference c.kp txKp).v)
      ∧ (sendLayout (quotientCodes c)).extractLsb' 40 8 =
        BitVec.ofInt 8 (f2i (quantSteps Numerics.reference c.kd txKd).v)
      ∧ (sendLayout (quotientCodes c)).extractLsb' 48 16 =
        BitVec.ofInt 16 (f2i (quantSteps Numerics.reference c.trq txTrq).v) :=
  ⟨(sendLayout_pos _).trans (codeOf_setWidth _ (by decide)), (sendLayout_vel _).trans (codeOf_setWidth _ (by decide)),
    (sendLayout_kp _).trans (codeOf_setWidth _ (by decide)), (sendLayout_kd _).trans (codeOf_setWidth _ (by decide)),
    (sendLayout_trq _).trans (codeOf_setWidth _ (by decide))⟩

/-! ### What PACK and BUILD.CONTROL answer -/

section
variable {s : State} {c : MotorCommand}

theorem exec_pack_ok {p : Payload} (h : packPayload Numerics.reference s.config.strictRange c = .ok p) :
    exec (.pack c) s = .next (s.setTx { s.txOut with data := p }) := by
  rw [exec, execPack, h]

theorem exec_pack_error {k : ErrKind} (h : packPayload Numerics.reference s.config.strictRange c = .error k) :
    exec (.pack c) s = .next (s.setTx (s.txOut.fail k)) := by
  rw [exec, execPack, h]

theorem joinId_eq_append (op : BitVec 6) (m : BitVec 5) : joinId op m = op ++ m :=
  BitVec.setWidth_append_eq_shiftLeft_setWidth_or.symm.trans (BitVec.setWidth_eq _)

/-- The identifier of a Control frame (R130). -/
theorem joinId_control (m : BitVec 5) : joinId 4 m = BitVec.ofNat 11 (128 + m.toNat) := by
  apply BitVec.eq_of_toNat_eq
  rw [joinId_eq_append, append_toNat, BitVec.toNat_ofNat, Nat.mod_eq_of_lt (by omega)]
  rfl

/-- The record of BUILD.CONTROL for a payload (R143). -/
def builtControl (m : BitVec 5) (p : Payload) : TxOut :=
  { id := BitVec.ofNat 11 (128 + m.toNat), dlc := 8, data := p, ok := true, err := 0, unknown := false }

/-- The record of BUILD.CONTROL for an error (R145). -/
def failedControl (m : BitVec 5) (k : ErrKind) : TxOut :=
  { id := BitVec.ofNat 11 (128 + m.toNat), dlc := 0, data := 0, ok := false, err := k.code, unknown := false }

theorem exec_buildControl_ok (m : BitVec 5) {p : Payload}
    (h : packPayload Numerics.reference s.config.strictRange c = .ok p) :
    exec (.buildControl m { valid := true, cmd := c }) s = .next (s.emitTx (builtControl m p)) := by
  simp only [exec, execBuildControl, controlRecord, h, txDefaults, joinId_control, builtControl, if_true]

theorem exec_buildControl_error (m : BitVec 5) {k : ErrKind}
    (h : packPayload Numerics.reference s.config.strictRange c = .error k) :
    exec (.buildControl m { valid := true, cmd := c }) s = .next (s.emitTx (failedControl m k)) := by
  simp only [exec, execBuildControl, controlRecord, h, txDefaults, joinId_control, failedControl, TxOut.fail, if_true]

end

/-- Settles O14: a field that is not finite decides PACK's answer. -/
theorem controlWithNonFiniteFieldFails : Obligations.ControlWithNonFiniteFieldFails := by
  unfold Obligations.ControlWithNonFiniteFieldFails
  intro m fields s h
  exact exec_buildControl_error m (packPayload_nonFinite h)

/-- Settles O15: with every field finite, a field out of range decides PACK's answer. -/
theorem strictControlOutOfRangeFails : Obligations.StrictControlOutOfRangeFails := by
  unfold Obligations.StrictControlOutOfRangeFails
  intro m fields s hs hf ho
  exact exec_buildControl_error m (hs ▸ packPayload_outOfRange hf ho)

/-- Settles O20: the fields of the payload are the slices of the send layout. -/
theorem packWritesThePayloadOrRaises : Obligations.PackWritesThePayloadOrRaises := by
  unfold Obligations.PackWritesThePayloadOrRaises
  intro c s
  refine ⟨fun hf hin => ?_, fun h => ?_, fun hs hf ho => ?_⟩
  · obtain ⟨hpos, hvel, hkp, hkd, htrq⟩ := sendLayout_quotientCodes c
    exact ⟨_, hpos, hvel, hkp, hkd, htrq, exec_pack_ok (packPayload_ok hf hin)⟩
  · exact exec_pack_error (packPayload_nonFinite h)
  · exact exec_pack_error (hs ▸ packPayload_outOfRange hf ho)

end Sys2Proof.Machine

/-! PROOFS. Moderate inputs (41_frame_packer.md R121): QUANT of a number no larger than a bound, in or out of range, is no
larger at any step than QUANT of the bound, so it is finite where that one is. -/

namespace Sys2Proof.Machine

/-! ### Operations on operands of smaller magnitude -/

/-- `a` is finite, and its magnitude is at most that of `b`. -/
def Within (a b : F64) : Prop := F64.finite a = true ∧ |F64.units a| ≤ |F64.units b|

theorem abs_roundSigned (u : Int) (q : Nat) : |roundSigned u q| = roundSigned |u| q := by
  rw [Int.abs_eq_natAbs, Int.abs_eq_natAbs, roundSigned_natCast, roundSigned, signed_natAbs]

theorem abs_roundSigned_mono {u u' : Int} {q : Nat} (hq : 0 < q) (h : |u| ≤ |u'|) :
    |roundSigned u q| ≤ |roundSigned u' q| := by
  rw [abs_roundSigned, abs_roundSigned]
  exact roundSigned_mono hq h

section
variable {a b c : F64}

theorem fsub_within (ha : F64.finite a = true) (hb : F64.finite b = true) (hc : F64.finite c = true)
    (h : |F64.units a - F64.units c| ≤ |F64.units b - F64.units c|) (hf : F64.finite (fsub b c) = true) :
    Within (fsub a c) (fsub b c) := by
  have hfinite : F64.finite (fsub a c) = true :=
    finite_of_threshold (fsub_overflow_iff ha hc) (fsub_overflow_iff hb hc) h hf
  rw [Within, units_fsub ha hc hfinite, units_fsub hb hc hf]
  exact ⟨hfinite, abs_roundSigned_mono Nat.one_pos h⟩

theorem fmul_within (h : Within a b) (hb : F64.finite b = true) (hc : F64.finite c = true)
    (hf : F64.finite (fmul b c) = true) : Within (fmul a c) (fmul b c) := by
  obtain ⟨ha, hab⟩ := h
  have hle : |F64.units a * F64.units c| ≤ |F64.units b * F64.units c| := by
    rw [abs_mul, abs_mul]
    exact mul_le_mul_of_nonneg_right hab (abs_nonneg _)
  have hfinite : F64.finite (fmul a c) = true :=
    finite_of_threshold (fmul_overflow_iff ha hc) (fmul_overflow_iff hb hc) hle hf
  rw [Within, units_fmul ha hc hfinite, units_fmul hb hc hf]
  exact ⟨hfinite, abs_roundSigned_mono F64.one_pos hle⟩

theorem finite_fdiv_of_within (h : Within a b) (hb : F64.finite b = true) (hc : F64.finite c = true)
    (hmag : F64.mag c ≠ 0) (hf : F64.finite (fdiv b c) = true) : F64.finite (fdiv a c) = true := by
  obtain ⟨ha, hab⟩ := h
  exact finite_of_threshold (fdiv_overflow_iff ha hc hmag) (fdiv_overflow_iff hb hc hmag)
    (mul_le_mul_of_nonneg_right hab (Int.natCast_nonneg _)) hf

end

/-- If QUANT of a positive bound is finite at every step, so is QUANT of every number within the bound: the bound is the
one farthest from a `min` that is not positive. -/
theorem quantFinite_of_abs_le {r : ScalarRange} {x b : F64} (hr : rangeOk Numerics.reference r = true)
    (hmin : F64.units r.min ≤ 0) (hb : quantFinite b (quantSteps Numerics.reference b r) = true)
    (hfx : F64.finite x = true) (hx : |F64.units x| ≤ F64.units b) :
    quantFinite x (quantSteps Numerics.reference x r) = true := by
  obtain ⟨hfb, hspan, hbd, hbm, hbv⟩ := (quantFinite_iff _ _).mp hb
  obtain ⟨hfmin, -, -, -, -⟩ := (rangeOk_iff r).mp hr
  have hfar : |F64.units x - F64.units r.min| ≤ |F64.units b - F64.units r.min| := by
    have hle := le_abs_self (F64.units b - F64.units r.min)
    rw [abs_le] at hx ⊢
    omega
  have hd := fsub_within hfx hfb hfmin hfar hbd
  have hm := fmul_within hd hbd (u2f_rangeN hr).1 hbm
  have hv := finite_fdiv_of_within hm hbm hspan (mag_span_ne_zero hr hspan) hbv
  exact (quantFinite_iff _ _).mpr ⟨hfx, hspan, hd.1, hm.1, hv⟩

/-! ### The bound of R121 -/

/-- 2^997, a binary64 value just above 10^300. -/
def moderateBound : F64 := 0x7E40000000000000#64

theorem le_moderateBound : ((10 ^ 300 * F64.one : Nat) : Int) ≤ F64.units moderateBound := by decide +kernel

/-- What the five send ranges compute at the bound. -/
theorem sendRanges_at_moderateBound :
    ∀ r ∈ [txPos, txVel, txTrq, txKp, txKd],
      rangeOk Numerics.reference r = true ∧ F64.units r.min ≤ 0
      ∧ quantFinite moderateBound (quantSteps Numerics.reference moderateBound r) = true := by
  decide +kernel

theorem quantFinite_of_moderate {r : ScalarRange} {x : F64} (hr : r ∈ [txPos, txVel, txTrq, txKp, txKd])
    (hfx : F64.finite x = true) (hx : F64.mag x < 10 ^ 300 * F64.one) :
    quantFinite x (quantSteps Numerics.reference x r) = true := by
  obtain ⟨hok, hmin, hbound⟩ := sendRanges_at_moderateBound r hr
  refine quantFinite_of_abs_le hok hmin hbound hfx (le_trans ?_ le_moderateBound)
  rw [Int.abs_eq_natAbs, units_natAbs]
  exact Int.ofNat_le.mpr hx.le

theorem range_mem_of_commandFields {c : MotorCommand} {f : F64 × ScalarRange} (h : f ∈ commandFields c) :
    f.2 ∈ [txPos, txVel, txTrq, txKp, txKd] := List.mem_map_of_mem (f := Prod.snd) h

/-- Settles O21: every field's QUANT is finite, and without STRICT_RANGE nothing else is looked at. -/
theorem packCannotFailOnModerateInputs : Obligations.PackCannotFailOnModerateInputs := by
  unfold Obligations.PackCannotFailOnModerateInputs
  intro c m s hs hc
  have hfinite : ∀ f ∈ commandFields c, quantFinite f.1 (quantSteps Numerics.reference f.1 f.2) = true :=
    fun f hmem => quantFinite_of_moderate (range_mem_of_commandFields hmem) (hc f hmem).1 (hc f hmem).2
  have hpack := packPayload_ok (strict := s.config.strictRange) hfinite (by simp [hs])
  exact ⟨_, exec_pack_ok hpack, exec_buildControl_ok m hpack⟩

end Sys2Proof.Machine

/-! PROOFS. UNPACK (41_frame_packer.md R115 to R119): what it answers, which bits of the payload each decoded field reads,
and what they determine. -/

namespace Sys2Proof.Machine

/-! ### What UNPACK answers -/

theorem exec_unpack (len : BitVec 4) (p : Payload) (s : State) :
    exec (.unpack len p) s =
      .next (s.setRx (s.rxOut.unpack Numerics.reference s.config.rxVelShift len p)) := rfl

/-- Settles O37: another length is malformed at once. -/
theorem wrongLengthIsMalformed : Obligations.WrongLengthIsMalformed := by
  unfold Obligations.WrongLengthIsMalformed
  intro len p s h
  rw [exec_unpack, unpack_other _ _ len p _ h]
  rfl

/-- UNPACK in the slices of R53. -/
theorem unpackState_eq (vs : RxVelShift) (p : Payload) :
    unpackState Numerics.reference vs p =
      { pos := (dequantSteps Numerics.reference (p.extractLsb' 0 20).toNat rxPos).y
        vel := (dequantSteps Numerics.reference (velocityRaw vs p).toNat rxVel).y
        trq := (dequantSteps Numerics.reference (p.extractLsb' 40 16).toNat rxTrq).y
        fault := p.getLsbD 56
        temp := (dequantSteps Numerics.reference (p.extractLsb' 57 7).toNat rxTemp).y } := by
  rw [unpackState, positionRaw_eq, torqueRaw_eq, faultRaw_eq, tempRaw_eq]

/-- Settles O36: the velocity slice is that of the shift the state holds. -/
theorem unpackWritesTheState : Obligations.UnpackWritesTheState := by
  unfold Obligations.UnpackWritesTheState
  intro p s vraw
  have hvel : velocityRaw s.config.rxVelShift p = vraw := by
    unfold vraw
    cases s.config.rxVelShift with
    | zero => exact (velocityRaw_zero p).trans (BitVec.shiftLeft_or_distrib _ _ _).symm
    | four => exact velocityRaw_four p
  rw [exec_unpack, unpack_eight, unpackState_eq, hvel]
  rfl

/-! ### The fault bit (R117) -/

/-- The fault bit alone. -/
def faultMask : Payload := 0x0100000000000000#64

/-- Flipping the fault bit changes no slice without it. -/
theorem slice_xor_faultMask (p : Payload) {off len : Nat} (h : faultMask.extractLsb' off len = 0) :
    (p ^^^ faultMask).extractLsb' off len = p.extractLsb' off len := by
  rw [BitVec.extractLsb'_xor, h]
  exact BitVec.xor_zero

theorem velocityRaw_xor_faultMask (vs : RxVelShift) (p : Payload) :
    velocityRaw vs (p ^^^ faultMask) = velocityRaw vs p := by
  rw [velocityRaw_eq, velocityRaw_eq, slice_xor_faultMask p (by decide), slice_xor_faultMask p (by decide)]

theorem fault_xor_faultMask (p : Payload) : (p ^^^ faultMask).getLsbD 56 = !p.getLsbD 56 := by
  have hbit : faultMask.getLsbD 56 = true := by decide
  rw [BitVec.getLsbD_xor, hbit, Bool.xor_true]

/-- Settles O39: the four reals read slices without the fault bit. -/
theorem faultBitIsData : Obligations.FaultBitIsData := by
  unfold Obligations.FaultBitIsData
  intro vs p
  rw [← faultMask, unpackState_eq, unpackState_eq, velocityRaw_xor_faultMask, fault_xor_faultMask,
    slice_xor_faultMask p (by decide), slice_xor_faultMask p (by decide), slice_xor_faultMask p (by decide)]

/-! ### The velocity slices by shift (R116) -/

section
variable {m : Nat} (x : BitVec m)

theorem zext_shiftLeft_low : (x.setWidth 20 <<< 4).extractLsb' 0 4 = 0 := by
  ext i hi
  simp [hi]

theorem zext_shiftLeft_slice {k n : Nat} (h : k + n ≤ 16) :
    (x.setWidth 20 <<< 4).extractLsb' (4 + k) n = x.extractLsb' k n := by
  ext i hi
  have hin : 4 + (k + i) < 20 := by omega
  simp [Nat.add_assoc, hin]

theorem slice_beyond {off len : Nat} (h : m ≤ off) : x.extractLsb' off len = 0 := by
  ext i hi
  simp [BitVec.getLsbD_of_ge x (off + i) (by omega)]

end

/-- At shift 0 the velocity is bytes 3 and 4 above four zero bits, with the high nibble of byte 2 over its lowest four. -/
theorem velocityRaw_zero_slices (p : Payload) :
    (velocityRaw .zero p).extractLsb' 0 4 = 0
    ∧ (velocityRaw .zero p).extractLsb' 4 4 =
      ((payloadByte p 2).extractLsb' 4 4 ||| (payloadByte p 3).extractLsb' 0 4)
    ∧ (velocityRaw .zero p).extractLsb' 8 4 = (payloadByte p 3).extractLsb' 4 4
    ∧ (velocityRaw .zero p).extractLsb' 12 8 = payloadByte p 4 := by
  have hnibble := fun k n h => zext_shiftLeft_slice (p.extractLsb' 20 4) (k := k) (n := n) h
  have hbytes := fun k n h => zext_shiftLeft_slice (p.extractLsb' 24 16) (k := k) (n := n) h
  simp only [velocityRaw_zero, BitVec.extractLsb'_or, payloadByte]
  refine ⟨?_, ?_, ?_, ?_⟩
  · rw [zext_shiftLeft_low, zext_shiftLeft_low]
    rfl
  · rw [hnibble 0 4 (by decide), hbytes 0 4 (by decide), BitVec.extractLsb'_eq_self, slice_of_slice p (by decide),
      slice_of_slice p (by decide), slice_of_slice p (by decide)]
  · rw [hnibble 4 4 (by decide), hbytes 4 4 (by decide), slice_beyond _ (by decide), slice_of_slice p (by decide),
      slice_of_slice p (by decide)]
    exact BitVec.zero_or
  · rw [hnibble 8 8 (by decide), hbytes 8 8 (by decide), slice_beyond _ (by decide), slice_of_slice p (by decide)]
    exact BitVec.zero_or

/-- Two different payloads with the same five raw fields at shift 0: bits 20 and 24 fall on one velocity bit. -/
theorem velocityRaw_zero_not_injective : ∃ p p' : Payload, p ≠ p' ∧ positionRaw p = positionRaw p'
    ∧ velocityRaw .zero p = velocityRaw .zero p' ∧ torqueRaw p = torqueRaw p' ∧ faultRaw p = faultRaw p'
    ∧ tempRaw p = tempRaw p' :=
  ⟨0x0000000000100000#64, 0x0000000001000000#64, by decide⟩

theorem getLsbD_congr_of_slice {w : Nat} {x y : BitVec w} {off len i : Nat}
    (h : x.extractLsb' off len = y.extractLsb' off len) (hlow : off ≤ i) (hhigh : i < off + len) :
    x.getLsbD i = y.getLsbD i := by
  rw [getLsbD_eq_slice x hlow hhigh, h, ← getLsbD_eq_slice y hlow hhigh]

/-- At shift 4 the five raw fields cover the payload. -/
theorem payload_eq_of_raw_four {p p' : Payload} (hpos : positionRaw p = positionRaw p')
    (hvel : velocityRaw .four p = velocityRaw .four p') (htrq : torqueRaw p = torqueRaw p')
    (hfault : faultRaw p = faultRaw p') (htemp : tempRaw p = tempRaw p') : p = p' := by
  rw [positionRaw_eq, positionRaw_eq] at hpos
  rw [velocityRaw_four, velocityRaw_four] at hvel
  rw [torqueRaw_eq, torqueRaw_eq] at htrq
  rw [faultRaw_eq, faultRaw_eq] at hfault
  rw [tempRaw_eq, tempRaw_eq] at htemp
  apply BitVec.eq_of_getLsbD_eq
  intro i hi
  rcases (by omega : i < 20 ∨ (20 ≤ i ∧ i < 40) ∨ (40 ≤ i ∧ i < 56) ∨ i = 56 ∨ 57 ≤ i) with
    h | ⟨h, h'⟩ | ⟨h, h'⟩ | rfl | h
  · exact getLsbD_congr_of_slice hpos (Nat.zero_le i) (by omega)
  · exact getLsbD_congr_of_slice hvel h (by omega)
  · exact getLsbD_congr_of_slice htrq h (by omega)
  · exact hfault
  · exact getLsbD_congr_of_slice htemp h (by omega)

/-- Settles O35: the slices at shift 0, a collision there, and the cover at shift 4. -/
theorem velocityExtractionByShift : Obligations.VelocityExtractionByShift := by
  unfold Obligations.VelocityExtractionByShift
  exact ⟨velocityRaw_zero_slices, velocityRaw_zero_not_injective, fun _ _ => payload_eq_of_raw_four⟩

end Sys2Proof.Machine

/-! PROOFS. The decoded reals (40_scalar_quantizer.md R97, R98, 41_frame_packer.md R115, R118): DEQUANT is monotone in the
code, so every code's value lies between those of code 0 and code `N`, the ends of the range. -/

namespace Sys2Proof.Machine

/-! ### DEQUANT as a function of the code (R97) -/

section
variable {r : ScalarRange}

/-- `y` of R97 for the code `q`: three roundings. -/
def valueUnits (r : ScalarRange) (q : Nat) : Int :=
  let a := roundSigned (q * F64.one * F64.units (fsub r.max r.min)) F64.one
  let b := roundSigned (a * F64.one) (F64.mag (u2f (rangeN r)))
  roundSigned (b + F64.units r.min) 1

theorem units_value {q : Nat} (hq : q < 2 ^ 53) (hr : rangeOk Numerics.reference r = true)
    (hf : dequantFinite (dequantSteps Numerics.reference q r) = true) :
    F64.units (dequantSteps Numerics.reference q r).y = valueUnits r q := by
  obtain ⟨hspan, ha, hb, hy⟩ := (dequantFinite_iff _).mp hf
  obtain ⟨hmin, -, -, -, -⟩ := (rangeOk_iff r).mp hr
  obtain ⟨hfq, huq⟩ := u2f_exact hq
  obtain ⟨hN, -⟩ := u2f_rangeN hr
  have hua : F64.units (dequantSteps Numerics.reference q r).a =
      roundSigned (F64.units (u2f q) * F64.units (fsub r.max r.min)) F64.one := units_fmul hfq hspan ha
  have hub : F64.units (dequantSteps Numerics.reference q r).b =
      roundSigned (F64.units (dequantSteps Numerics.reference q r).a * F64.one) (F64.mag (u2f (rangeN r))) :=
    units_fdiv ha hN (u2f_rangeN_pos hr) hb
  rw [hua, huq] at hub
  refine (units_fadd hb hmin hy).trans ?_
  rw [hub, valueUnits]

theorem valueUnits_mono {q q' : Nat} (hr : rangeOk Numerics.reference r = true)
    (hs : F64.finite (fsub r.max r.min) = true) (h : q ≤ q') : valueUnits r q ≤ valueUnits r q' := by
  have hone : (0 : Int) ≤ F64.one := Int.natCast_nonneg _
  have hN := Nat.pos_of_ne_zero ((units_eq_zero _).not.mp (u2f_rangeN_pos hr).ne')
  have ha := roundSigned_mono F64.one_pos (mul_le_mul_of_nonneg_right
    (mul_le_mul_of_nonneg_right (Int.ofNat_le.mpr h) hone) (span_pos hr hs).le)
  have hb := roundSigned_mono hN (mul_le_mul_of_nonneg_right ha hone)
  exact roundSigned_mono Nat.one_pos (Int.add_le_add_right hb _)

/-- If DEQUANT of `n` is finite at every step, so is DEQUANT of every smaller code, and its value is no larger. -/
theorem dequant_below {q n : Nat} (hr : rangeOk Numerics.reference r = true) (hn : n < 2 ^ 53) (h : q ≤ n)
    (htop : dequantFinite (dequantSteps Numerics.reference n r) = true) :
    dequantFinite (dequantSteps Numerics.reference q r) = true
      ∧ F64.units (dequantSteps Numerics.reference q r).y ≤ F64.units (dequantSteps Numerics.reference n r).y := by
  have hf := dequantFinite_of_le hr hn h htop
  obtain ⟨hspan, -, -, -⟩ := (dequantFinite_iff _).mp htop
  rw [units_value (h.trans_lt hn) hr hf, units_value hn hr htop]
  exact ⟨hf, valueUnits_mono hr hspan h⟩

end

/-! ### The receive ranges (R7) -/

/-- The last codes of the four receive ranges are decoded without NonFinite. -/
theorem receiveRanges_compute : ∀ r ∈ [rxPos, rxVel, rxTrq, rxTemp],
    rangeOk Numerics.reference r = true ∧ dequantFinite (dequantSteps Numerics.reference (rangeN r) r) = true := by
  decide +kernel

theorem receiveRange_ends {r : ScalarRange} (hr : r ∈ [rxPos, rxVel, rxTrq, rxTemp]) :
    (dequantSteps Numerics.reference 0 r).y = r.min
      ∧ (dequantSteps Numerics.reference (rangeN r) r).y = r.max := by
  have hprotocol : r ∈ [txPos, txVel, txTrq, txKp, txKd] ++ [rxPos, rxVel, rxTrq, rxTemp] :=
    List.mem_append_right _ hr
  obtain ⟨-, -, -, hmin, hmax⟩ := protocolRanges_compute r hprotocol
  exact ⟨hmin, hmax⟩

theorem receiveRange_decodes {r : ScalarRange} (hr : r ∈ [rxPos, rxVel, rxTrq, rxTemp]) {q : Nat} (h : q ≤ rangeN r) :
    dequantFinite (dequantSteps Numerics.reference q r) = true
      ∧ InRange (dequantSteps Numerics.reference q r).y r := by
  obtain ⟨hok, htop⟩ := receiveRanges_compute r hr
  obtain ⟨hmin, hmax⟩ := receiveRange_ends hr
  have hN : rangeN r < 2 ^ 53 := (rangeN_lt hok).2.trans (by norm_num)
  obtain ⟨hf, hle⟩ := dequant_below hok hN h htop
  obtain ⟨-, hge⟩ := dequant_below hok (h.trans_lt hN) (Nat.zero_le q) hf
  obtain ⟨-, -, -, hfy⟩ := (dequantFinite_iff _).mp hf
  rw [hmin] at hge
  rw [hmax] at hle
  exact ⟨hf, hfy, hge, hle⟩

/-- A raw field of the width of its range is a code up to `N`. -/
theorem rawField_inRange {r : ScalarRange} (hr : r ∈ [rxPos, rxVel, rxTrq, rxTemp]) {w : Nat} (raw : BitVec w)
    (hw : w = r.bits.toNat) : InRange (dequantSteps Numerics.reference raw.toNat r).y r := by
  subst hw
  exact (receiveRange_decodes hr (Nat.le_sub_one_of_lt raw.isLt)).2

/-- Settles O38: the values of the codes lie between the ends, and the four raw fields are codes. -/
theorem everyPayloadDecodesInRange : Obligations.EveryPayloadDecodesInRange := by
  unfold Obligations.EveryPayloadDecodesInRange
  refine ⟨fun r hr q hq => receiveRange_decodes hr hq, fun vs p => ⟨?_, ?_, ?_, ?_⟩⟩
  · exact rawField_inRange (by simp) (positionRaw p) rfl
  · exact rawField_inRange (by simp) (velocityRaw vs p) rfl
  · exact rawField_inRange (by simp) (torqueRaw p) rfl
  · exact rawField_inRange (by simp) (tempRaw p) rfl

/-! ### The end payloads (R118) -/

/-- The largest velocity of shift 0, whose low four bits are zero: DEQUANT puts it below 40.0. -/
theorem lastVelocity_zero : rangeOk Numerics.reference rxVel = true
    ∧ dequantFinite (dequantSteps Numerics.reference 0xFFFF0 rxVel) = true
    ∧ F64.units (dequantSteps Numerics.reference 0xFFFF0 rxVel).y < F64.units rxVel.max := by
  decide +kernel

theorem velocityRaw_zero_le (p : Payload) : (velocityRaw .zero p).toNat ≤ 0xFFFF0 := by
  obtain ⟨hlow, -, -, -⟩ := velocityRaw_zero_slices p
  have hzero : (velocityRaw .zero p).toNat % 2 ^ 4 = 0 := by simpa [slice_toNat] using congrArg BitVec.toNat hlow
  have hlt := (velocityRaw .zero p).isLt
  omega

/-- No code of shift 0 reaches the top of the range (R118). -/
theorem velocity_zero_lt_max (p : Payload) :
    F64.units (unpackState Numerics.reference .zero p).vel < F64.units rxVel.max := by
  obtain ⟨hok, htop, hlt⟩ := lastVelocity_zero
  exact (dequant_below hok (by norm_num) (velocityRaw_zero_le p) htop).2.trans_lt hlt

/-- Settles O40: the end payloads evaluate; at shift 0 no velocity reaches the top of its range. -/
theorem endPayloadsDecode : Obligations.EndPayloadsDecode := by
  unfold Obligations.EndPayloadsDecode
  refine ⟨fun vs => ?_, by decide +kernel, by decide +kernel, fun p h => ?_⟩
  · cases vs <;> decide +kernel
  · have hlt := velocity_zero_lt_max p
    rw [h] at hlt
    exact absurd hlt (lt_irrefl _)

end Sys2Proof.Machine

/-! PROOFS. The identifier (42_frame_id.md R130 to R133): as built it is two fields end to end, as received two slices,
the lower of them one bit short. What a PARSE answers depends on the identifier through those two slices alone. -/

namespace Sys2Proof.Machine

/-! ### The identifier as built (R130) -/

theorem joinId_toNat (op : BitVec 6) (m : BitVec 5) : (joinId op m).toNat = 32 * op.toNat + m.toNat := by
  rw [joinId_eq_append, append_toNat, Nat.mul_comm]
  rfl

theorem joinId_motor (op : BitVec 6) (m : BitVec 5) : (joinId op m).extractLsb' 0 5 = m := by
  rw [joinId_eq_append, BitVec.extractLsb'_append_eq_right]

theorem exec_idenc (op : BitVec 6) (m : BitVec 5) (s : State) :
    exec (.idenc op m) s = .next (s.setTx { s.txOut with id := joinId op m }) := rfl

/-- Settles O7: the identifier is the opcode above the motor. -/
theorem idencJoinsOpcodeAndAddress : Obligations.IdencJoinsOpcodeAndAddress := by
  unfold Obligations.IdencJoinsOpcodeAndAddress
  exact fun op m s => ⟨joinId op m, rfl, joinId_toNat op m, joinId_opcode op m, joinId_motor op m, exec_idenc op m s⟩

/-! ### The identifier as received (R131) -/

theorem rxOpcode_eq_slice (id : BitVec 32) : rxOpcode id = id.extractLsb' 5 6 := rxOpcode_eq_opcodeField id

theorem rxMotor_eq_slice (id : BitVec 32) : rxMotor id = (id.extractLsb' 0 4).setWidth 8 := by
  have hmask : (id &&& 0x0F#32).toNat = id.toNat % 2 ^ 4 := Nat.and_two_pow_sub_one_eq_mod id.toNat 4
  have hslice : (id.extractLsb' 0 4).toNat = id.toNat / 2 ^ 0 % 2 ^ 4 := slice_toNat id 0 4
  rw [rxMotor]
  bv_omega

/-- The bits of an identifier that a receiver reads (R131): 10:5 and 3:0. -/
def receiveMask : BitVec 32 := 0x7EF#32

/-- A slice that lies within the mask is the same in identifiers that agree under the mask. -/
theorem slice_eq_of_masked_eq {id id' : BitVec 32} (h : id &&& receiveMask = id' &&& receiveMask) {off len : Nat}
    (hmask : receiveMask.extractLsb' off len = BitVec.allOnes len) : id.extractLsb' off len = id'.extractLsb' off len := by
  have hslice := congrArg (BitVec.extractLsb' off len) h
  rwa [BitVec.extractLsb'_and, BitVec.extractLsb'_and, hmask, BitVec.and_allOnes, BitVec.and_allOnes] at hslice

theorem exec_iddec (id : BitVec 32) (s : State) :
    exec (.iddec id) s =
      .next (s.setRx { s.rxOut with opcode := id.extractLsb' 5 6, motor := (id.extractLsb' 0 4).setWidth 8 }) := by
  rw [← rxOpcode_eq_slice, ← rxMotor_eq_slice]
  rfl

/-- Settles O8: IDDEC answers two slices, and both lie within the mask. -/
theorem iddecReadsOpcodeAndFourAddressBits : Obligations.IddecReadsOpcodeAndFourAddressBits := by
  unfold Obligations.IddecReadsOpcodeAndFourAddressBits
  refine ⟨exec_iddec, fun id id' s h => ?_⟩
  rw [exec_iddec, exec_iddec, slice_eq_of_masked_eq h (by decide), slice_eq_of_masked_eq h (by decide)]

/-! ### The round trips (R133) -/

theorem rxOpcode_joinId (op : BitVec 6) (m : BitVec 5) : rxOpcode ((joinId op m).setWidth 32) = op := by
  rw [rxOpcode_eq_slice, BitVec.extractLsb'_setWidth_of_le (by decide), joinId_opcode]

/-- The receiver sees the motor without address bit 4 (R132). -/
theorem rxMotor_joinId (op : BitVec 6) (m : BitVec 5) :
    rxMotor ((joinId op m).setWidth 32) = (m.extractLsb' 0 4).setWidth 8 := by
  rw [rxMotor_eq_slice, BitVec.extractLsb'_setWidth_of_le (by decide), joinId_eq_append,
    BitVec.extractLsb'_append_eq_of_add_le (by decide)]

theorem rxMotor_joinId_toNat (op : BitVec 6) (m : BitVec 5) :
    (rxMotor ((joinId op m).setWidth 32)).toNat = m.toNat % 16 := by
  rw [rxMotor_joinId, BitVec.toNat_setWidth_of_le (by decide), slice_toNat, pow_zero, Nat.div_one]
  rfl

theorem receiveMask_getLsbD : ∀ i < 32, receiveMask.getLsbD i = decide (i < 4 ∨ 5 ≤ i ∧ i < 11) := by decide

/-- The motor read, in five bits: bit 4 is zero, the others are those of the identifier. -/
theorem rxMotor_setWidth_getLsbD (id : BitVec 32) (i : Nat) :
    ((rxMotor id).setWidth 5).getLsbD i = (decide (i < 4) && id.getLsbD i) := by
  rw [rxMotor_eq_slice, BitVec.getLsbD_setWidth, BitVec.getLsbD_setWidth, BitVec.getLsbD_extractLsb', Nat.zero_add]
  by_cases h : i < 4
  · simp [h, show i < 5 by omega, show i < 8 by omega]
  · simp [h]

/-- What IDDEC reads, joined again, is the masked identifier: below bit 5 the motor, from there on the opcode. -/
theorem joinId_rxOpcode_rxMotor (id : BitVec 32) :
    (joinId (rxOpcode id) ((rxMotor id).setWidth 5)).setWidth 32 = id &&& receiveMask := by
  apply BitVec.eq_of_getLsbD_eq
  intro i hi
  rw [BitVec.getLsbD_setWidth, joinId_eq_append, BitVec.getLsbD_append, BitVec.getLsbD_and, receiveMask_getLsbD i hi]
  by_cases hlow : i < 5
  · have hbit : decide (i < 4 ∨ 5 ≤ i ∧ i < 11) = decide (i < 4) := decide_eq_decide.mpr (by omega)
    simp only [hi, hlow, hbit, rxMotor_setWidth_getLsbD, decide_true, Bool.true_and, if_true, Bool.and_comm]
  · have hbit : decide (i < 4 ∨ 5 ≤ i ∧ i < 11) = decide (i - 5 < 6) := decide_eq_decide.mpr (by omega)
    have hindex : 5 + (i - 5) = i := by omega
    simp [hi, hlow, hbit, hindex, rxOpcode_eq_slice, Bool.and_comm]

/-- Settles O9: the slices of a joined identifier, and the join of the slices of a received one. -/
theorem identifierRoundTrips : Obligations.IdentifierRoundTrips := by
  unfold Obligations.IdentifierRoundTrips
  exact ⟨fun op m => ⟨rxOpcode_joinId op m, rxMotor_joinId_toNat op m⟩, joinId_rxOpcode_rxMotor⟩

/-! ### What a PARSE reads of the identifier (R132, R146, R195) -/

section
variable {rx rx' : RxIn}

theorem parsedRecord_congr (num : Numerics) (vs : RxVelShift) (hid : rxDefaults rx.id = rxDefaults rx'.id)
    (hlen : rx.len = rx'.len) (hdata : rx.data = rx'.data) : parsedRecord num vs rx = parsedRecord num vs rx' := by
  rw [parsedRecord, parsedRecord, hid, hlen, hdata]

/-- The record a PARSE starts from shows the two slices within the mask. -/
theorem rxDefaults_eq_of_masked_eq {id id' : BitVec 32} (h : id &&& receiveMask = id' &&& receiveMask) :
    rxDefaults id = rxDefaults id' := by
  simp only [rxDefaults, rxOpcode_eq_slice, rxMotor_eq_slice]
  rw [slice_eq_of_masked_eq h (by decide), slice_eq_of_masked_eq h (by decide)]

/-- The selection and every record read the identifier through the record a PARSE starts from. -/
theorem exec_selectParse_congr (hid : rxDefaults rx.id = rxDefaults rx'.id) (hlen : rx.len = rx'.len)
    (hdata : rx.data = rx'.data) (s : State) : exec (selectParse rx) s = exec (selectParse rx') s := by
  have hop : rxOpcode rx.id = rxOpcode rx'.id := congrArg RxOut.opcode hid
  rw [selectParse, selectParse, hop]
  split_ifs
  · simp only [exec, execParseDisable, hid]
  · simp only [exec, execParseEnable, hid]
  · simp only [exec, execParseControl, parsedRecord_congr _ _ hid hlen hdata]
  · simp only [exec, execParseUnknown, hid]

end

/-- Flipping address bit 4 of the motor changes no bit that the receiver reads (R195). -/
theorem rxDefaults_joinId_xor (op : BitVec 6) (m : BitVec 5) :
    rxDefaults ((joinId op m).setWidth 32) = rxDefaults ((joinId op (m ^^^ 16#5)).setWidth 32) := by
  have hslice : (m ^^^ 16#5).extractLsb' 0 4 = m.extractLsb' 0 4 := BitVec.extractLsb'_xor.trans BitVec.xor_zero
  simp only [rxDefaults, rxOpcode_joinId, rxMotor_joinId, hslice]

/-- Settles O10: records with equal length and data whose identifiers show the same opcode and motor parse alike. -/
theorem ignoredIdentifierBitsAreNotRead : Obligations.IgnoredIdentifierBitsAreNotRead := by
  unfold Obligations.IgnoredIdentifierBitsAreNotRead
  refine ⟨fun rx rx' s hid hlen hdata => ?_, fun op m len data s => ?_⟩
  · exact exec_selectParse_congr (rxDefaults_eq_of_masked_eq hid) hlen hdata s
  · apply exec_selectParse_congr
    · exact rxDefaults_joinId_xor op m
    · rfl
    · rfl

end Sys2Proof.Machine

/-! PROOFS. The builder and the parser (43_builder_parser.md R140 to R150): the opcode alone selects the operation, and
each operation delivers one record, the defaults of its port with what its rule sets. -/

namespace Sys2Proof.Machine

/-! ### Selection (R140, R146) -/

/-- Settles O6: each port decodes its record to the selection of its opcode. -/
theorem opcodeSelectsTheOperation : Obligations.OpcodeSelectsTheOperation := by
  unfold Obligations.OpcodeSelectsTheOperation
  refine ⟨decode_encodeTx, fun rx => ?_⟩
  rw [← rxOpcode_eq_slice]
  exact decode_encodeRx rx

/-! ### Frames without data (R141, R142, R144) -/

theorem joinId_eq_ofNat (op : BitVec 6) (m : BitVec 5) : joinId op m = BitVec.ofNat 11 (32 * op.toNat + m.toNat) := by
  rw [← joinId_toNat, BitVec.ofNat_toNat, BitVec.setWidth_eq]

/-- The record every BUILD starts from, with the identifier as a number. -/
theorem txDefaults_eq (op : BitVec 6) (m : BitVec 5) :
    txDefaults op m =
      { id := BitVec.ofNat 11 (32 * op.toNat + m.toNat), dlc := 0, data := 0, ok := true, err := 0
        unknown := false } := by
  rw [txDefaults, joinId_eq_ofNat]

section
variable (op : BitVec 6) (m : BitVec 5) (c : CommandIn) (s : State)

theorem exec_buildDisable : exec (.buildDisable m c) s = .next (s.emitTx (txDefaults 1 m)) := rfl

theorem exec_buildEnable : exec (.buildEnable m c) s = .next (s.emitTx (txDefaults 2 m)) := rfl

theorem exec_buildUnknown :
    exec (.buildUnknown op m c) s = .next (s.emitTx { txDefaults op m with unknown := true }) := rfl

end

/-- Settles O11: both records are the defaults of their opcode. -/
theorem disableAndEnableFramesAreBuilt : Obligations.DisableAndEnableFramesAreBuilt := by
  unfold Obligations.DisableAndEnableFramesAreBuilt
  intro m c s
  rw [exec_buildDisable, exec_buildEnable, txDefaults_eq, txDefaults_eq]
  exact ⟨rfl, rfl⟩

/-- Settles O12: the record is the defaults with `tx_unknown`. -/
theorem unknownOpcodeFrameIsBuilt : Obligations.UnknownOpcodeFrameIsBuilt := by
  unfold Obligations.UnknownOpcodeFrameIsBuilt
  intro op m c s _ _ _
  rw [exec_buildUnknown, txDefaults_eq]
  rfl

/-! ### The Control frame (R143) -/

/-- Settles O16: without an error PACK lays out the codes, and its slices are the fields. -/
theorem controlFrameIsBuilt : Obligations.ControlFrameIsBuilt := by
  unfold Obligations.ControlFrameIsBuilt
  intro m fields s hf hin
  obtain ⟨hpos, hvel, hkp, hkd, htrq⟩ := sendLayout_quotientCodes fields
  exact ⟨_, hpos, hvel, hkp, hkd, htrq, exec_buildControl_ok m (packPayload_ok hf hin)⟩

/-- QUANT of a number in a send range raises nothing, and its quotient lies between those of the two ends. -/
theorem sendRange_quotient {r : ScalarRange} (hr : r ∈ [txPos, txVel, txTrq, txKp, txKd]) {x : F64}
    (hx : InRange x r) :
    quantFinite x (quantSteps Numerics.reference x r) = true
      ∧ 0 ≤ f2i (quantSteps Numerics.reference x r).v
      ∧ f2i (quantSteps Numerics.reference x r).v ≤ 2 ^ r.bits.toNat - 1 := by
  obtain ⟨hok, -, -⟩ := sendRanges_at_moderateBound r hr
  have hprotocol : r ∈ [txPos, txVel, txTrq, txKp, txKd] ++ [rxPos, rxVel, rxTrq, rxTemp] :=
    List.mem_append_left _ hr
  obtain ⟨htop, -⟩ := protocolRanges_compute r hprotocol
  obtain ⟨hmax, -⟩ := protocolRangesReachBothEnds r hprotocol
  have hf := quantFinite_of_inRange hok htop hx
  obtain ⟨-, hspan, -, -, -⟩ := (quantFinite_iff _ _).mp hf
  have hquant : quantize Numerics.reference false x r = .ok (f2i (quantSteps Numerics.reference x r).v) :=
    quantize_of_not_outside false hf (outside_of_inRange hx)
  obtain ⟨-, hlow, hhigh⟩ := hx
  exact ⟨hf, quantIsMonotone _ _ _ _ _ _ hok hlow (quantize_min false hok hspan) hquant,
    quantIsMonotone _ _ _ _ _ _ hok hhigh hquant hmax⟩

/-- A field as wide as its range holds a quotient of the range unreduced. -/
theorem field_toNat_of_quotient {w : Nat} {field : BitVec w} {t : Int} (hfield : field = BitVec.ofInt w t)
    (ht : 0 ≤ t ∧ t ≤ 2 ^ w - 1) : (field.toNat : Int) = t := by
  have hlt : t < (2 ^ w : Nat) := by push_cast; omega
  rw [hfield, BitVec.toNat_ofInt, Int.emod_eq_of_lt ht.1 hlt, Int.toNat_of_nonneg ht.1]

/-- Settles O17: in range no QUANT raises a kind, and each quotient fits its field. -/
theorem inRangeCommandIsBuiltFaithfully : Obligations.InRangeCommandIsBuiltFaithfully := by
  unfold Obligations.InRangeCommandIsBuiltFaithfully
  intro m fields s hin
  have hquotient := fun f hmem => sendRange_quotient (range_mem_of_commandFields hmem) (hin f hmem)
  have hfits := fun f hmem => (hquotient f hmem).2
  obtain ⟨p, hpos, hvel, hkp, hkd, htrq, hexec⟩ := controlFrameIsBuilt m fields s
    (fun f hmem => (hquotient f hmem).1) (fun _ f hmem => (hin f hmem).2)
  obtain ⟨hposFits, hvelFits, htrqFits, hkpFits, hkdFits⟩ := forall_commandFields.mp hfits
  exact ⟨hfits, p, field_toNat_of_quotient hpos hposFits, field_toNat_of_quotient hvel hvelFits,
    field_toNat_of_quotient hkp hkpFits, field_toNat_of_quotient hkd hkdFits,
    field_toNat_of_quotient htrq htrqFits, hexec⟩

/-! ### PARSE (R147 to R150) -/

/-- The record every PARSE starts from, in the slices of the identifier. -/
theorem rxDefaults_eq (id : BitVec 32) :
    rxDefaults id =
      { motor := (id.extractLsb' 0 4).setWidth 8, opcode := id.extractLsb' 5 6, stateValid := false, pos := 0, vel := 0
        trq := 0, temp := 0, fault := false, ack := false, unknown := false, malformed := false } := by
  rw [rxDefaults, rxMotor_eq_slice, rxOpcode_eq_slice]

section
variable (rx : RxIn) (s : State)

theorem exec_parseDisable : exec (.parseDisable rx) s = .next (s.emitRx { rxDefaults rx.id with ack := true }) := rfl

theorem exec_parseEnable : exec (.parseEnable rx) s = .next (s.emitRx { rxDefaults rx.id with ack := true }) := rfl

theorem exec_parseUnknown :
    exec (.parseUnknown rx) s = .next (s.emitRx { rxDefaults rx.id with unknown := true }) := rfl

theorem exec_parseControl :
    exec (.parseControl rx) s =
      .next (s.emitRx (parsedRecord Numerics.reference s.config.rxVelShift rx)) := rfl

end

/-- Settles O41: the record of either length is the defaults with what UNPACK writes. -/
theorem controlFrameIsParsed : Obligations.ControlFrameIsParsed := by
  unfold Obligations.ControlFrameIsParsed
  intro rx s hop
  rw [exec_parseControl]
  refine ⟨fun hlen => ?_, fun hlen => ?_⟩
  · rw [parsedRecord_eight _ _ rx hlen, rxDefaults_eq, hop]
    rfl
  · rw [parsedRecord_other _ _ rx hlen, rxDefaults_eq, hop]
    rfl

/-- Settles O42: both records are the defaults with `rx_ack`. -/
theorem acknowledgmentsAreParsed : Obligations.AcknowledgmentsAreParsed := by
  unfold Obligations.AcknowledgmentsAreParsed
  intro rx s
  rw [exec_parseDisable, exec_parseEnable, rxDefaults_eq]
  refine ⟨fun hop => ?_, fun hop => ?_⟩
  · rw [hop]
    rfl
  · rw [hop]
    rfl

/-- Settles O43: the record is the defaults with `rx_unknown`. -/
theorem unknownOpcodeIsParsed : Obligations.UnknownOpcodeIsParsed := by
  unfold Obligations.UnknownOpcodeIsParsed
  intro rx s _ _ _
  rw [exec_parseUnknown, rxDefaults_eq]
  rfl

end Sys2Proof.Machine

/-! PROOFS. Status outputs (60_exceptions.md R160 to R170): every record that a port operation delivers is lawful, and a
state that meets the invariant still meets it after one more lawful record. -/

namespace Sys2Proof.Machine

/-! ### MissingCommand (R145, R165) -/

theorem exec_buildControl_missing (m : BitVec 5) (fields : MotorCommand) (s : State) :
    exec (.buildControl m { valid := false, cmd := fields }) s =
      .next (s.emitTx ((txDefaults 4 m).fail .missingCommand)) := rfl

/-- Settles O13: the record is the defaults, failed with the kind MissingCommand. -/
theorem controlWithoutCommandFails : Obligations.ControlWithoutCommandFails := by
  unfold Obligations.ControlWithoutCommandFails
  intro m fields s
  rw [exec_buildControl_missing, txDefaults_eq]
  rfl

/-! ### Known opcodes (R68) -/

theorem isKnown_four : IsKnown 4 := .inr (.inr rfl)

theorem not_isKnown {op : BitVec 6} (h1 : op ≠ 1) (h2 : op ≠ 2) (h4 : op ≠ 4) : ¬ IsKnown op :=
  not_or.mpr ⟨h1, not_or.mpr ⟨h2, h4⟩⟩

/-! ### TX records are lawful (R140 to R145, R167) -/

section
variable {op : BitVec 6} (m : BitVec 5)

theorem txDefaults_opcode (op : BitVec 6) : (txDefaults op m).opcode = op := joinId_opcode op m

/-- A frame of any opcode but Control's has no data, and says whether its opcode is known (R141, R142, R144). -/
theorem emptyFrame_lawful {unknown : Bool} (hop : op ≠ 4) (hunknown : unknown = true ↔ ¬ IsKnown op) :
    TxOut.Lawful { txDefaults op m with unknown := unknown } := by
  have hopcode : TxOut.opcode { txDefaults op m with unknown := unknown } = op := txDefaults_opcode m op
  rw [TxOut.Lawful, hopcode]
  exact ⟨iff_of_true rfl rfl, (if_neg fun ⟨_, h⟩ => hop h).symm, fun _ => rfl, hunknown, (nomatch ·)⟩

/-- A built Control frame has eight bytes (R65, R143). -/
theorem builtFrame_lawful (p : Payload) : TxOut.Lawful { txDefaults 4 m with dlc := 8, data := p } := by
  have hopcode : TxOut.opcode { txDefaults 4 m with dlc := 8, data := p } = 4 := txDefaults_opcode m 4
  rw [TxOut.Lawful, hopcode]
  exact ⟨iff_of_true rfl rfl, (if_pos ⟨rfl, rfl⟩).symm, (absurd · (by decide : (8 : BitVec 4) ≠ 0)),
    iff_of_false Bool.false_ne_true (not_not_intro isKnown_four), (nomatch ·)⟩

/-- A failed Control frame has no data, and the code of its kind is not that of success (R145, R167). -/
theorem failedFrame_lawful (k : ErrKind) : ((txDefaults 4 m).fail k).Lawful := by
  have hopcode : ((txDefaults 4 m).fail k).opcode = 4 := txDefaults_opcode m 4
  rw [TxOut.Lawful, hopcode]
  exact ⟨iff_of_false (code_ne_zero k) Bool.false_ne_true, (if_neg fun ⟨h, _⟩ => Bool.false_ne_true h).symm,
    fun _ => rfl, iff_of_false Bool.false_ne_true (not_not_intro isKnown_four), fun _ => rfl⟩

theorem controlRecord_lawful (num : Numerics) (strict : Bool) (c : CommandIn) :
    (controlRecord num strict m c).Lawful := by
  rcases controlRecord_cases num strict m c with ⟨-, h⟩ | ⟨-, p, -, h⟩ | ⟨-, k, -, h⟩ <;> rw [h]
  · exact failedFrame_lawful m .missingCommand
  · exact builtFrame_lawful m p
  · exact failedFrame_lawful m k

/-- Every TX transaction completes with a lawful record. -/
theorem exec_selectBuild_lawful (op : BitVec 6) (c : CommandIn) (s : State) :
    ∃ o : TxOut, o.Lawful ∧ exec (selectBuild op m c) s = .next (s.emitTx o) := by
  rcases selectBuild_cases op m c with ⟨-, h⟩ | ⟨-, h⟩ | ⟨-, h⟩ | ⟨h1, h2, h4, h⟩ <;> rw [h]
  · exact ⟨_, emptyFrame_lawful m (by decide) (by simp [IsKnown]), exec_buildDisable m c s⟩
  · exact ⟨_, emptyFrame_lawful m (by decide) (by simp [IsKnown]), exec_buildEnable m c s⟩
  · exact ⟨_, controlRecord_lawful m _ _ c, rfl⟩
  · exact ⟨_, emptyFrame_lawful m h4 (iff_of_true rfl (not_isKnown h1 h2 h4)), exec_buildUnknown op m c s⟩

end

/-! ### RX records are lawful (R146 to R150, R167) -/

/-- Four address bits are received (R29, R131). -/
theorem rxMotor_lt (id : BitVec 32) : (rxMotor id).toNat < 16 := by
  rw [rxMotor_eq_slice]
  bv_omega

section
variable {rx : RxIn}

/-- A Disable or Enable frame is acknowledged (R148, R149). -/
theorem ackRecord_lawful (hop : rxOpcode rx.id = 1 ∨ rxOpcode rx.id = 2) :
    RxOut.Lawful { rxDefaults rx.id with ack := true } := by
  have hne : rxOpcode rx.id ≠ 4 := by rcases hop with h | h <;> rw [h] <;> decide
  have hknown : IsKnown (rxOpcode rx.id) := hop.imp_right .inl
  exact ⟨iff_of_true rfl hop, iff_of_false Bool.false_ne_true (not_not_intro hknown),
    iff_of_false hne (by simp [rxDefaults]), by simp [rxDefaults], rxMotor_lt _, fun _ => ⟨rfl, rfl, rfl, rfl, rfl⟩⟩

/-- A frame of an opcode that is not known is reported as such (R150). -/
theorem unknownRecord_lawful (h1 : rxOpcode rx.id ≠ 1) (h2 : rxOpcode rx.id ≠ 2) (h4 : rxOpcode rx.id ≠ 4) :
    RxOut.Lawful { rxDefaults rx.id with unknown := true } :=
  ⟨iff_of_false Bool.false_ne_true (not_or.mpr ⟨h1, h2⟩), iff_of_true rfl (not_isKnown h1 h2 h4),
    iff_of_false h4 (by simp [rxDefaults]), by simp [rxDefaults], rxMotor_lt _, fun _ => ⟨rfl, rfl, rfl, rfl, rfl⟩⟩

/-- A Control frame shows its state, or is malformed and shows none (R119, R147). -/
theorem parsedRecord_lawful (num : Numerics) (vs : RxVelShift) (hop : rxOpcode rx.id = 4) :
    (parsedRecord num vs rx).Lawful := by
  have hack : ¬ (rxOpcode rx.id = 1 ∨ rxOpcode rx.id = 2) := by rw [hop]; decide
  have hknown : IsKnown (rxOpcode rx.id) := .inr (.inr hop)
  by_cases hlen : rx.len = 8
  · rw [parsedRecord_eight num vs rx hlen]
    exact ⟨iff_of_false Bool.false_ne_true hack, iff_of_false Bool.false_ne_true (not_not_intro hknown),
      iff_of_true hop (.inl rfl), fun ⟨_, h⟩ => Bool.false_ne_true h, rxMotor_lt _, (nomatch ·)⟩
  · rw [parsedRecord_other num vs rx hlen]
    exact ⟨iff_of_false Bool.false_ne_true hack, iff_of_false Bool.false_ne_true (not_not_intro hknown),
      iff_of_true hop (.inr rfl), fun ⟨h, _⟩ => Bool.false_ne_true h, rxMotor_lt _,
      fun _ => ⟨rfl, rfl, rfl, rfl, rfl⟩⟩

/-- Every RX transaction completes with a lawful record. -/
theorem exec_selectParse_lawful (rx : RxIn) (s : State) :
    ∃ o : RxOut, o.Lawful ∧ exec (selectParse rx) s = .next (s.emitRx o) := by
  rcases selectParse_cases rx with ⟨hop, h⟩ | ⟨hop, h⟩ | ⟨hop, h⟩ | ⟨h1, h2, h4, h⟩ <;> rw [h]
  · exact ⟨_, ackRecord_lawful (.inl hop), exec_parseDisable rx s⟩
  · exact ⟨_, ackRecord_lawful (.inr hop), exec_parseEnable rx s⟩
  · exact ⟨_, parsedRecord_lawful _ _ hop, exec_parseControl rx s⟩
  · exact ⟨_, unknownRecord_lawful h1 h2 h4, exec_parseUnknown rx s⟩

end

/-- The opcode of a lawful record allows one flag, or for Control one of two that exclude each other (R167). -/
theorem RxOut.Lawful.one_flag {o : RxOut} (h : o.Lawful) :
    o.stateValid.toNat + o.ack.toNat + o.unknown.toNat + o.malformed.toNat = 1 := by
  obtain ⟨hack, hunknown, hstate, hexclusive, -, -⟩ := h
  have known : IsKnown o.opcode → o.unknown = false := fun hop => by simpa using mt hunknown.mp (not_not_intro hop)
  by_cases h4 : o.opcode = 4
  · have hnoack : o.ack = false := by simpa [h4] using hack
    rcases hstate.mp h4 with hvalid | hmalformed
    · have hformed : o.malformed = false := by simpa [hvalid] using hexclusive
      simp [hvalid, hnoack, known (.inr (.inr h4)), hformed]
    · have hinvalid : o.stateValid = false := by simpa [hmalformed] using hexclusive
      simp [hinvalid, hnoack, known (.inr (.inr h4)), hmalformed]
  · obtain ⟨hinvalid, hformed⟩ : o.stateValid = false ∧ o.malformed = false := by simpa using mt hstate.mpr h4
    by_cases hcommand : o.opcode = 1 ∨ o.opcode = 2
    · simp [hinvalid, hack.mpr hcommand, known (hcommand.imp_right .inl), hformed]
    · have hnoack : o.ack = false := by simpa using mt hack.mp hcommand
      obtain ⟨h1, h2⟩ := not_or.mp hcommand
      simp [hinvalid, hnoack, hunknown.mpr (not_isKnown h1 h2 h4), hformed]

/-- Settles O44: the record that the selected operation delivers is lawful. -/
theorem everyFrameParsesWithExactlyOneFlag : Obligations.EveryFrameParsesWithExactlyOneFlag := by
  unfold Obligations.EveryFrameParsesWithExactlyOneFlag
  intro rx s
  obtain ⟨o, hlawful, hexec⟩ := exec_selectParse_lawful rx s
  exact ⟨o, hexec, hlawful.one_flag⟩

/-! ### Delivering one record, whatever its port -/

/-- A transaction completes with the record `o` on the port of `o` (R6, R202). -/
def State.emit (o : Output) (s : State) : State :=
  match o with
  | .tx o => s.emitTx o
  | .rx o => s.emitRx o
  | .q o => s.emitQ o
  | .dq o => s.emitDq o

section
variable {s : State} {o : Output}

@[simp] theorem emit_config : (s.emit o).config = s.config := by cases o <;> rfl

@[simp] theorem emit_results : (s.emit o).results = s.results ++ [o] := by cases o <;> rfl

/-- One more lawful record keeps the invariant: it is the last of its port, and the lines of the others stand. -/
theorem State.Inv.emit (h : s.Inv) (ho : o.Lawful s.config) : (s.emit o).Inv where
  lawful := by
    rw [emit_results, emit_config, List.forall_mem_append, List.forall_mem_singleton]
    exact ⟨h.lawful, ho⟩
  tx := by cases o <;> simp [State.emit, lastTx, h.tx]
  rx := by cases o <;> simp [State.emit, lastRx, h.rx]
  q := by cases o <;> simp [State.emit, lastQ, h.q]
  dq := by cases o <;> simp [State.emit, lastDq, h.dq]

/-- The invariant does not speak of the free values. -/
theorem State.Inv.draw (h : s.Inv) : s.draw.Inv := ⟨h.lawful, h.tx, h.rx, h.q, h.dq⟩

/-- The invariant does not speak of the transactions to come. -/
theorem State.Inv.take (h : s.Inv) (rest : List Request) : (s.take rest).Inv := ⟨h.lawful, h.tx, h.rx, h.q, h.dq⟩

end

/-! ### What a port operation delivers -/

/-- `t` is `s` after one more lawful record, with or without a free value used up. -/
def DeliversLawful (s t : State) : Prop := ∃ o : Output, o.Lawful s.config ∧ (t = s.emit o ∨ t = (s.emit o).draw)

section
variable {s t : State} {r : ScalarRange}

theorem DeliversLawful.inv (h : DeliversLawful s t) (hs : s.Inv) : t.Inv := by
  obtain ⟨o, ho, rfl | rfl⟩ := h
  · exact hs.emit ho
  · exact (hs.emit ho).draw

/-- Each kind raises one flag, and OutOfRangeInput is a kind of the strict variant only (R94, R99). -/
theorem raisedQ_lawful {x : F64} {k : ErrKind} {code : BitVec 32}
    (h : quantize Numerics.reference s.config.strictRange x r = .error k) :
    QOut.Lawful s.config { code := code, fault := k == .nonFinite, oor := k == .outOfRange } := by
  refine ⟨by cases k <;> simp, fun hoor => ?_⟩
  obtain rfl : k = .outOfRange := by simpa using hoor
  by_contra hstrict
  rw [Bool.not_eq_true] at hstrict
  exact quantize_lenient Numerics.reference x r (hstrict ▸ h)

theorem quant_delivers {x : F64} (h : exec (.quant x r) s = .next t) : DeliversLawful s t := by
  by_cases hr : rangeOk Numerics.reference r = true
  · cases hq : quantize Numerics.reference s.config.strictRange x r with
    | ok v =>
      obtain rfl := Host.Outcome.next.inj ((exec_quant_ok hr hq).symm.trans h)
      exact ⟨.q { code := codeOf v, fault := false, oor := false }, ⟨by simp, by simp⟩, .inl rfl⟩
    | error k =>
      obtain rfl := Host.Outcome.next.inj ((exec_quant_error hr hq).symm.trans h)
      exact ⟨.q _, raisedQ_lawful hq, .inr rfl⟩
  · rw [exec_quant_refused_iff.mpr hr] at h
    cases h

theorem dequant_delivers {q : BitVec 32} (h : exec (.dequant q r) s = .next t) : DeliversLawful s t := by
  by_cases hr : rangeOk Numerics.reference r = true
  · cases hd : dequantFinite (dequantSteps Numerics.reference q.toNat r) with
    | true =>
      obtain rfl := Host.Outcome.next.inj ((exec_dequant_finite hr hd).symm.trans h)
      obtain ⟨-, -, -, hy⟩ := (dequantFinite_iff _).mp hd
      exact ⟨.dq { y := _, fault := false }, fun _ => hy, .inl rfl⟩
    | false =>
      obtain rfl := Host.Outcome.next.inj ((exec_dequant_nonFinite hr hd).symm.trans h)
      exact ⟨.dq { y := _, fault := true }, (nomatch ·), .inr rfl⟩
  · rw [exec_dequant_refused_iff.mpr hr] at h
    cases h

/-- Every transaction that a request selects, if it completes, delivers a lawful record. -/
theorem decoded_delivers {req : Request} {i : Instr} (hd : decode req = .ok i) (h : exec i s = .next t) :
    DeliversLawful s t := by
  obtain ⟨-, ⟨-, op, m, c, rfl⟩ | ⟨-, rx, rfl⟩ | ⟨-, x, rg, rfl⟩ | ⟨-, q, rg, rfl⟩⟩ := decode_ok_cases req i hd
  · obtain ⟨o, hlawful, hexec⟩ := exec_selectBuild_lawful m op c s
    exact ⟨.tx o, hlawful, .inl (Host.Outcome.next.inj (h.symm.trans hexec))⟩
  · obtain ⟨o, hlawful, hexec⟩ := exec_selectParse_lawful rx s
    exact ⟨.rx o, hlawful, .inl (Host.Outcome.next.inj (h.symm.trans hexec))⟩
  · exact quant_delivers h
  · exact dequant_delivers h

end

/-- Settles O45: a step idles, or delivers one lawful record from the state without the request. -/
theorem stepKeepsTheInvariant : Obligations.StepKeepsTheInvariant := by
  unfold Obligations.StepKeepsTheInvariant
  intro s t hs h
  rcases step_next_cases s t h with ⟨-, rfl⟩ | ⟨r, rest, i, -, hd, hexec⟩
  · exact hs
  · exact (decoded_delivers hd hexec).inv (hs.take rest)

end Sys2Proof.Machine

/-! PROOFS. Runs with and without a transaction (70_reset_and_hazards.md R202): the idle step, the refusal of a request
that is no input record (93_implementation_defined.md U14), and the run that completes every presented transaction. -/

namespace Sys2Proof.Machine

/-- With nothing presented a step idles (R6, R202; log 7). -/
theorem step_of_nothing_pending {s : State} (hp : s.pending = []) : step s = .next s := by
  rw [step, hp]

/-- A step refuses a next request that is no input record of its port, with the decoder's reason (U14; log 11). -/
theorem step_of_decode_error {s : State} {r : Request} {rest : List Request} {e : DecodeError}
    (hp : s.pending = r :: rest) (hd : decode r = .error e) : step s = .refused (.notPresentable e) := by
  rw [step, hp]
  simp only [hd]

/-- Settles O2: the two branches of a step that run no instruction. -/
theorem stepIdlesOrRefusesWithoutATransaction : Obligations.StepIdlesOrRefusesWithoutATransaction := by
  unfold Obligations.StepIdlesOrRefusesWithoutATransaction
  exact ⟨fun _ hp => step_of_nothing_pending hp, fun _ _ _ _ hp hd => step_of_decode_error hp hd⟩

/-- Settles O51: the run of `run_answers_alone` over the requests that stand in the queue, by induction on them. -/
theorem runAnswersEachTransactionAsAlone : Obligations.RunAnswersEachTransactionAsAlone := by
  unfold Obligations.RunAnswersEachTransactionAsAlone
  intro s hacc
  exact run_answers_alone s.pending rfl hacc

end Sys2Proof.Machine
